-- ==== Sys2Proof/Word.lean ====
section
/-! DEFINITION. Words, bytes and the two readings of a word (00_scope.md rules R7 and R8). -/

namespace Sys2Proof

/-- A register or an operand: one 32-bit word (R8), bit 0 least significant (R7). -/
abbrev Word := BitVec 32

/-- One byte of a text (R11, R38). -/
abbrev Byte := BitVec 8

/-- A text value is a byte string (R11). -/
abbrev Text := List Byte

/-- `u32(v)` is `v mod 2^32` (R8), for an integer computed exactly. -/
def u32 (v : Int) : Word := BitVec.ofInt 32 v

/-- `s32(w)` reads a word as two's complement (R8). -/
def s32 (w : Word) : Int := w.toInt

end Sys2Proof
end

