-- ==== Sys2Proof/Config.lean ====
section
/-! DEFINITION. The implementation parameters of 00_scope.md rule R5: the shapes of the read-only tables (10_state.md rules
R32 to R36) and the OPEN parameters, which are opaque constants with no body, so that nothing can evaluate one. The tables'
default values, which the spec gives, are in Machine/Tables.lean. -/

namespace Sys2Proof

/-- The seven decoder tables of R35 and R150. -/
inductive DecoderClass where
  | common | dvbt | dvbt2 | dvbc | isdbt | isdbs | generic
deriving DecidableEq, Repr, Inhabited

/-- The format of a decode table entry (R35): decimal, hexadecimal, or text list number `l`. -/
inductive Fmt where
  | dec
  | hex
  | list (l : Nat)
deriving DecidableEq, Repr, Inhabited

/-- An entry of `INFO` (R35): `NotDef`, or `Def(title, fmt)`. -/
inductive Entry where
  | notDef
  | defined (title : Text) (fmt : Fmt)
deriving DecidableEq, Repr, Inhabited

/-- One listed entry of `INFO[class][id]` (R35). A pair with no row is `NotDef`. -/
structure InfoRow where
  cls : DecoderClass
  id : Nat
  entry : Entry
deriving DecidableEq, Repr, Inhabited

/-- The CNR table of one standard (R33): `nmod` modulations by `ncr` code rates, the required CNR values (dB times 100)
row by row. -/
structure CnrTable where
  nmod : Nat
  ncr : Nat
  req : List Nat
deriving DecidableEq, Repr, Inhabited

/-- The dispatcher's tables, OPEN in the spec: `COMMON_END` (R34), `INFO` (R35), `TEXTLIST` (R36); `NLISTS` is the number
of text lists. -/
structure DispatchTables where
  commonEnd : List Nat
  info : List InfoRow
  textLists : List (List Text)
deriving DecidableEq, Repr, Inhabited

/-- All read-only tables of the block (R32 to R36). `log10` lists `LOG10_LUT[1]` to `LOG10_LUT[100]`. -/
structure Tables where
  log10 : List Nat
  dvbt : CnrTable
  dvbt2 : CnrTable
  dispatch : DispatchTables
deriving DecidableEq, Repr, Inhabited

/-- `ID_VALUE` (R5, R21): bits 31:16 are ASCII "SQ", bits 15:0 the revision. -/
def Config.idValue : Word := 0x53510001

/-- `SQC_BASE` (R5, R50), OPEN: the bus address of offset 0. FREE, log entry 10. -/
opaque Config.sqcBase : Nat

/-- `LATENCY` (R5, R30, R230), OPEN: how many other steps of the system fall between the acceptance of the n-th command and
its completion step. FREE, log entry 2. -/
opaque Config.latency : Nat → Nat

/-- The unspecified word of the n-th read of RESULT, DESC or TEXT made while BUSY is 1 (R225). FREE, log entry 3. -/
opaque Config.unspecifiedWord : Nat → Word

/-- The dispatcher's tables of the block after reset (R34 to R36), OPEN. FREE, log entry 9. -/
opaque Config.openDispatch : DispatchTables

end Sys2Proof
end

