-- ==== Sys2Proof/Syntax.lean ====
section
/-! DEFINITION. The eight commands of 30_encoding.md rule R71, the standards of rule R73 and the assembler's commands of
rule R82. -/

namespace Sys2Proof

/-- A command, one constructor per row of the opcode table (R71, R80). The fields hold every value their bits can: each
value of STD, MOD, CR and ID is legal (R73, R74, R75), so no term of this type is ill formed. -/
inductive Instr where
  | nop
  | log10
  | berscale
  | berscore
  | cnrrel (std mod cr : BitVec 4)
  | sqi (std mod cr : BitVec 4)
  | title (std : BitVec 4) (id : BitVec 9)
  | value (std : BitVec 4) (id : BitVec 9)
deriving DecidableEq, Repr

/-- The named standards of R73. -/
inductive Standard where
  | undef | dvbt | dvbt2 | dvbc | isdbt | isdbs | atsc | qam
deriving DecidableEq, Repr

/-- A command as the host's assembler takes it (R82): its operands are plain numbers, and one outside its field's range is
an assembly error (`AsmCommand.wellFormed`), never truncated. -/
inductive AsmCommand where
  | nop
  | log10
  | berscale
  | berscore
  | cnrrel (std mod cr : Nat)
  | sqi (std mod cr : Nat)
  | title (std id : Nat)
  | value (std id : Nat)
deriving DecidableEq, Repr

end Sys2Proof
end

