-- ==== Sys2Proof/WellFormed.lean ====
section
/-! DEFINITION. What is well formed: an assembler's command (30_encoding.md rule R82) and a configuration (00_scope.md rule
R6). A decoded command needs no check: every value of each of its fields is legal (R73 to R75). -/

namespace Sys2Proof

/-- Every operand is inside its field's range (R82): std, mod and cr are 0 to 15, id is 0 to 511. -/
def AsmCommand.wellFormed : AsmCommand → Bool
  | .nop => true
  | .log10 => true
  | .berscale => true
  | .berscore => true
  | .cnrrel std mod cr => decide (std < 16) && decide (mod < 16) && decide (cr < 16)
  | .sqi std mod cr => decide (std < 16) && decide (mod < 16) && decide (cr < 16)
  | .title std id => decide (std < 16) && decide (id < 512)
  | .value std id => decide (std < 16) && decide (id < 512)

/-- A sequence of bytes in 0x01 to 0x7F (R6). -/
def textWf (t : Text) : Bool := t.all fun b => decide (1 ≤ b.toNat) && decide (b.toNat ≤ 0x7F)

/-- `LOG10_LUT` (R6): 100 entries in 0 to 2000, with the three exact points. -/
def log10Wf (l : List Nat) : Bool :=
  decide (l.length = 100) && l.all (fun v => decide (v ≤ 2000))
    && decide (l[0]? = some 0) && decide (l[9]? = some 1000) && decide (l[99]? = some 2000)

/-- A CNR table (R6, R33): one entry for each pair of indices, each 0 to 65535. -/
def CnrTable.wf (c : CnrTable) : Bool :=
  decide (c.req.length = c.nmod * c.ncr) && c.req.all fun v => decide (v ≤ 65535)

/-- The title's bytes are well formed, and a list number is below `NLISTS` (R6). -/
def Entry.wf (nlists : Nat) : Entry → Bool
  | .notDef => true
  | .defined title .dec => textWf title
  | .defined title .hex => textWf title
  | .defined title (.list l) => textWf title && decide (l < nlists)

/-- The dispatcher's tables (R6, R34 to R36): 16 common ends in 0 to 512, ids in 0 to 511, at most 256 text lists. -/
def DispatchTables.wf (d : DispatchTables) : Bool :=
  decide (d.commonEnd.length = 16) && d.commonEnd.all (fun v => decide (v ≤ 512))
    && d.info.all (fun r => decide (r.id < 512) && r.entry.wf d.textLists.length)
    && decide (d.textLists.length ≤ 256) && d.textLists.all (fun l => l.all textWf)

/-- A well-formed configuration (R6). -/
def Tables.wf (t : Tables) : Bool :=
  log10Wf t.log10 && t.dvbt.wf && t.dvbt2.wf && t.dispatch.wf

/-- The tables of a block: R6 says a model refuses a configuration that is not well formed, and no such value can be
built (log entry 6). -/
abbrev WfTables := { t : Tables // t.wf = true }

end Sys2Proof
end

