-- ==== Sys2Proof/Decode.lean ====
section
/-! DEFINITION. The command word: its fields, the decoder, the encoder, the opcode map and the assembler (30_encoding.md
rules R70 to R82). -/

namespace Sys2Proof

/-- OP is bits 3:0 (R70). -/
def opField (w : Word) : BitVec 4 := w.extractLsb' 0 4

/-- STD is bits 7:4 (R70). -/
def stdField (w : Word) : BitVec 4 := w.extractLsb' 4 4

/-- MOD is bits 11:8 (R70). -/
def modField (w : Word) : BitVec 4 := w.extractLsb' 8 4

/-- CR is bits 15:12 (R70). -/
def crField (w : Word) : BitVec 4 := w.extractLsb' 12 4

/-- ID is bits 24:16 (R70). -/
def idField (w : Word) : BitVec 9 := w.extractLsb' 16 9

/-- The must-be-zero bits of each operation, `MBZ` of R78 (R72). A reserved operation has no row: it is illegal whatever
its other bits are. -/
def mbz (op : BitVec 4) : Word :=
  match op.toNat with
  | 0 => 0xFFFFFFF0
  | 1 => 0xFFFFFFF0
  | 2 => 0xFFFFFFF0
  | 3 => 0xFFFFFFF0
  | 4 => 0xFFFF0000
  | 5 => 0xFFFF0000
  | 6 => 0xFE00FF00
  | 7 => 0xFE00FF00
  | _ => 0

/-- Why a word is illegal (R79). -/
inductive DecodeError where
  /-- OP is 8 to 15. -/
  | reservedOp
  /-- A must-be-zero bit of the operation is set. -/
  | mustBeZero
deriving DecidableEq, Repr

/-- The command that OP selects, with the fields it uses (R71, R72); none for OP 8 to 15. -/
def commandOf (w : Word) : Option Instr :=
  match (opField w).toNat with
  | 0 => some .nop
  | 1 => some .log10
  | 2 => some .berscale
  | 3 => some .berscore
  | 4 => some (.cnrrel (stdField w) (modField w) (crField w))
  | 5 => some (.sqi (stdField w) (modField w) (crField w))
  | 6 => some (.title (stdField w) (idField w))
  | 7 => some (.value (stdField w) (idField w))
  | _ => none

/-- Decoding of a command word (R78, R79): total on every word, an illegal word rejected by name. -/
def decode (w : Word) : Except DecodeError Instr :=
  match commandOf w with
  | none => .error .reservedOp
  | some i => if w &&& mbz (opField w) = 0 then .ok i else .error .mustBeZero

/-- The command word of a command (R82). -/
def encode : Instr → Word
  | .nop => 0x00000000
  | .log10 => 0x00000001
  | .berscale => 0x00000002
  | .berscore => 0x00000003
  | .cnrrel std mod cr => 0#7 ++ 0#9 ++ cr ++ mod ++ std ++ 4#4
  | .sqi std mod cr => 0#7 ++ 0#9 ++ cr ++ mod ++ std ++ 5#4
  | .title std id => 0#7 ++ id ++ 0#8 ++ std ++ 6#4
  | .value std id => 0#7 ++ id ++ 0#8 ++ std ++ 7#4

/-- The decoder as the host asks it: the word's bits numbered as the opcode table numbers them, which for one 32-bit word
is the word itself, every bit from `nbits` up being 0. A number of more bits is no command word (R70). -/
def decodeTableWord (nbits w : Nat) : Option Instr :=
  if nbits ≤ 32 ∧ w < 2 ^ nbits then
    match decode (BitVec.ofNat 32 w) with
    | .ok i => some i
    | .error _ => none
  else none

/-- A row of the opcode map (R80): a word `w` is the row's command when `w AND mask = mtch`. -/
structure OpcodeRow where
  mnemonic : String
  mtch : Word
  mask : Word
deriving DecidableEq, Repr

/-- The opcode map (R80). -/
def opcodeRows : List OpcodeRow :=
  [⟨"NOP", 0x00000000, 0xFFFFFFFF⟩, ⟨"LOG10", 0x00000001, 0xFFFFFFFF⟩,
   ⟨"BERSCALE", 0x00000002, 0xFFFFFFFF⟩, ⟨"BERSCORE", 0x00000003, 0xFFFFFFFF⟩,
   ⟨"CNRREL", 0x00000004, 0xFFFF000F⟩, ⟨"SQI", 0x00000005, 0xFFFF000F⟩,
   ⟨"TITLE", 0x00000006, 0xFE00FF0F⟩, ⟨"VALUE", 0x00000007, 0xFE00FF0F⟩]

/-- The word is the row's command (R80). -/
def OpcodeRow.matches (r : OpcodeRow) (w : Word) : Bool := decide (w &&& r.mask = r.mtch)

/-- The mnemonic of a command (R71). -/
def Instr.mnemonic : Instr → String
  | .nop => "NOP"
  | .log10 => "LOG10"
  | .berscale => "BERSCALE"
  | .berscore => "BERSCORE"
  | .cnrrel _ _ _ => "CNRREL"
  | .sqi _ _ _ => "SQI"
  | .title _ _ => "TITLE"
  | .value _ _ => "VALUE"

/-- The code of a named standard (R73). -/
def Standard.code : Standard → Nat
  | .undef => 0
  | .dvbt => 1
  | .dvbt2 => 2
  | .dvbc => 3
  | .isdbt => 4
  | .isdbs => 5
  | .atsc => 6
  | .qam => 7

/-- The command with each operand put into its field. -/
def AsmCommand.toInstr : AsmCommand → Instr
  | .nop => .nop
  | .log10 => .log10
  | .berscale => .berscale
  | .berscore => .berscore
  | .cnrrel std mod cr => .cnrrel (BitVec.ofNat 4 std) (BitVec.ofNat 4 mod) (BitVec.ofNat 4 cr)
  | .sqi std mod cr => .sqi (BitVec.ofNat 4 std) (BitVec.ofNat 4 mod) (BitVec.ofNat 4 cr)
  | .title std id => .title (BitVec.ofNat 4 std) (BitVec.ofNat 9 id)
  | .value std id => .value (BitVec.ofNat 4 std) (BitVec.ofNat 9 id)

/-- The assembler (R82): the command word, or none where an operand is outside its field's range. -/
def AsmCommand.assemble (c : AsmCommand) : Option Word :=
  if c.wellFormed then some (encode c.toInstr) else none

end Sys2Proof
end

