-- ==== Sys2Proof/Machine/Tables.lean ====
section
/-! DEFINITION. The default values of the read-only tables (10_state.md rules R32 and R33), the tables a block has after
reset, and the reads of a table that the commands make (R10, R120, R150, R151, R155). -/

namespace Sys2Proof.Machine

/-- `LOG10_LUT[1]` to `LOG10_LUT[100]`, the default of R32, ten entries a row. PRESUMED by the spec itself ([from general
knowledge, not in source]), log entry 7. -/
def log10Default : List Nat :=
  [0, 301, 477, 602, 699, 778, 845, 903, 954, 1000] ++
  [1041, 1079, 1114, 1146, 1176, 1204, 1230, 1255, 1279, 1301] ++
  [1322, 1342, 1362, 1380, 1398, 1415, 1431, 1447, 1462, 1477] ++
  [1491, 1505, 1519, 1531, 1544, 1556, 1568, 1580, 1591, 1602] ++
  [1613, 1623, 1633, 1643, 1653, 1663, 1672, 1681, 1690, 1699] ++
  [1708, 1716, 1724, 1732, 1740, 1748, 1756, 1763, 1771, 1778] ++
  [1785, 1792, 1799, 1806, 1813, 1820, 1826, 1833, 1839, 1845] ++
  [1851, 1857, 1863, 1869, 1875, 1881, 1886, 1892, 1898, 1903] ++
  [1908, 1914, 1919, 1924, 1929, 1934, 1940, 1944, 1949, 1954] ++
  [1959, 1964, 1968, 1973, 1978, 1982, 1987, 1991, 1996, 2000]

/-- The default DVB-T table of R33. Its first entry, 510, is the source's own; the others are PRESUMED by the spec itself,
log entry 8. -/
def dvbtDefault : CnrTable :=
  { nmod := 3, ncr := 5,
    req := [510, 690, 790, 890, 970] ++ [1080, 1310, 1460, 1560, 1600] ++ [1650, 1870, 2020, 2160, 2250] }

/-- The default DVB-T2 table of R33. PRESUMED by the spec itself, log entry 8. -/
def dvbt2Default : CnrTable :=
  { nmod := 4, ncr := 6,
    req := [350, 470, 560, 660, 720, 770] ++ [870, 1010, 1140, 1250, 1330, 1380] ++
      [1300, 1480, 1620, 1770, 1870, 1940] ++ [1700, 1940, 2080, 2290, 2430, 2510] }

/-- Dispatcher tables with no entry; used only where `Config.openDispatch` is not well formed. -/
def noDispatch : DispatchTables := { commonEnd := List.replicate 16 0, info := [], textLists := [] }

/-- The free dispatcher tables, kept inside what R6 allows: some well-formed tables, and no proof can see which (log
entry 9). -/
def freeDispatch : DispatchTables :=
  if Config.openDispatch.wf then Config.openDispatch else noDispatch

/-- The default LOG10 and CNR tables with given dispatcher tables. -/
def tablesWith (d : DispatchTables) : Tables :=
  { log10 := log10Default, dvbt := dvbtDefault, dvbt2 := dvbt2Default, dispatch := d }

theorem freeDispatch_wf : freeDispatch.wf = true := by
  unfold freeDispatch
  split
  · assumption
  · decide

theorem tablesWith_wf (d : DispatchTables) (h : d.wf = true) : (tablesWith d).wf = true := by
  have hl : log10Wf log10Default = true := by decide
  have h1 : dvbtDefault.wf = true := by decide
  have h2 : dvbt2Default.wf = true := by decide
  simp [Tables.wf, tablesWith, hl, h1, h2, h]

/-- The tables of the block after reset (R5): the spec's defaults, and the OPEN tables free. -/
def resetTables : WfTables := ⟨tablesWith freeDispatch, tablesWith_wf freeDispatch freeDispatch_wf⟩

/-- `LUT(x)` reads `LOG10_LUT[x]` (R10), for x in 1 to 100. -/
def lut (t : Tables) (x : Nat) : Nat := t.log10[x - 1]?.getD 0

/-- The CNR table of a standard (R33, R73): only codes 1 and 2 have one, every other code has the empty table. -/
def cnrTable (t : Tables) (std : BitVec 4) : CnrTable :=
  match std.toNat with
  | 1 => t.dvbt
  | 2 => t.dvbt2
  | _ => { nmod := 0, ncr := 0, req := [] }

/-- `has_ref(std, mod, cr)` (R120). -/
def hasRef (t : Tables) (std mod cr : BitVec 4) : Bool :=
  (decide (std.toNat = 1) || decide (std.toNat = 2))
    && decide (mod.toNat < (cnrTable t std).nmod) && decide (cr.toNat < (cnrTable t std).ncr)

/-- `REQ(std, mod, cr)` reads `CNR_REQ[std][mod][cr]` (R10, R33). -/
def req (t : Tables) (std mod cr : BitVec 4) : Nat :=
  (cnrTable t std).req[mod.toNat * (cnrTable t std).ncr + cr.toNat]?.getD 0

/-- `COMMON_END[std]` (R34). -/
def commonEnd (d : DispatchTables) (std : BitVec 4) : Nat := d.commonEnd[std.toNat]?.getD 0

/-- `class_of(std, id)` (R150). -/
def classOf (d : DispatchTables) (std : BitVec 4) (id : BitVec 9) : DecoderClass :=
  if id.toNat < commonEnd d std then .common
  else
    match std.toNat with
    | 1 => .dvbt
    | 2 => .dvbt2
    | 3 => .dvbc
    | 4 => .isdbt
    | 5 => .isdbs
    | _ => .generic

/-- `INFO(class, id)` (R35): the first row listed for the pair, and `NotDef` where none is (log entry 11). -/
def info (d : DispatchTables) (cls : DecoderClass) (id : BitVec 9) : Entry :=
  match d.info.find? fun r => decide (r.cls = cls) && decide (r.id = id.toNat) with
  | some r => r.entry
  | none => .notDef

/-- The entry of a `(std, id)` pair (R151): the id indexes the class's table as it stands. -/
def entryOf (d : DispatchTables) (std : BitVec 4) (id : BitVec 9) : Entry := info d (classOf d std id) id

/-- `NOTDEF_TEXT` (R5, R152): the 11 ASCII characters `Not Defined`. -/
def notDefText : Text := [0x4E, 0x6F, 0x74, 0x20, 0x44, 0x65, 0x66, 0x69, 0x6E, 0x65, 0x64]

/-- `listtext(l, raw)` (R155): the string of the list and 0, or the sentinel and 1 beyond its length. -/
def listText (d : DispatchTables) (l raw : Nat) : Text × Bool :=
  match (d.textLists[l]?.getD [])[raw]? with
  | some t => (t, false)
  | none => (notDefText, true)

/-- The class code of DESC.CLASS (R37, R150). -/
def classCode : DecoderClass → BitVec 3
  | .common => 0
  | .dvbt => 1
  | .dvbt2 => 2
  | .dvbc => 3
  | .isdbt => 4
  | .isdbs => 5
  | .generic => 6

end Sys2Proof.Machine
end

