-- ==== Sys2Proof/Machine/State.lean ====
section
/-! DEFINITION. The state of the block (10_state.md), the host's operations still to come (20_memory.md rule R59), the state
after reset (R41, R220), and the reasons a step stops. -/

namespace Sys2Proof.Machine

/-- The width of a host access (R52). -/
inductive Width where
  | byte | half | word
deriving DecidableEq, Repr

/-- One operation that reaches the block from outside (R10, R59, R83, R220). Addresses are bus addresses. -/
inductive HostOp where
  /-- A bus read of the width at the address. -/
  | read (width : Width) (addr : Nat)
  /-- A bus write of the value, its low bits where the width is below 32. -/
  | write (width : Width) (addr : Nat) (value : Word)
  /-- `WAIT` (R83): reads STATUS again and again until BUSY reads 0. -/
  | wait
  /-- The platform's power-on reset (R220). -/
  | powerOn
deriving DecidableEq, Repr

/-- Four operand words, ARG0 to ARG3 (R29). -/
structure Operands where
  arg0 : Word
  arg1 : Word
  arg2 : Word
  arg3 : Word
deriving DecidableEq, Repr

/-- The engine's latch `L` (R30): the command word and the operands as they were at acceptance. -/
structure Latch where
  cmd : Word
  arg : Operands
deriving DecidableEq, Repr

/-- The state. `busy` to `latch` are the block's own; `tables` are its read-only tables (R42), fixed for its life; the
fields after `wait` are the model's, and say what the outside does. -/
structure State where
  /-- The read-only tables (R32 to R36, R42). -/
  tables : WfTables
  /-- STATUS.BUSY (R24). -/
  busy : Bool
  /-- STATUS.DONE (R25). -/
  done : Bool
  /-- STATUS.OVR (R26). -/
  ovr : Bool
  /-- STATUS.ERR (R27). -/
  err : BitVec 4
  /-- CMD (R28). -/
  cmd : Word
  /-- ARG0 to ARG3 (R29). -/
  args : Operands
  /-- RESULT (R31). -/
  result : Word
  /-- DESC (R37). -/
  desc : Word
  /-- TEXT[0..63] (R38). -/
  text : Vector Byte 64
  /-- The engine's latch (R30); it means something only while BUSY is 1 (log entry 4). -/
  latch : Latch
  /-- How many other steps come before the completion step (R30, R227). -/
  wait : Nat
  /-- How many commands have been accepted: the index of `Config.latency` (log entry 2). -/
  accepted : Nat
  /-- Latencies given for the next accepted commands (R5); free where the list is empty (log entry 2). -/
  latencies : List Nat
  /-- How many unspecified words have been drawn: the index of `Config.unspecifiedWord` (log entry 3). -/
  draws : Nat
  /-- The host's operations still to come, in issue order (R59). -/
  host : List HostOp
  /-- The words the host's reads have returned, newest first. -/
  returned : List Word
deriving DecidableEq, Repr

/-- Four operand words of zero. -/
def Operands.zero : Operands := { arg0 := 0, arg1 := 0, arg2 := 0, arg3 := 0 }

/-- The machine right after reset (R41, R220, R222): every register zero, no command in execution, and it waits for a host
access. The model's own fields say that nothing has been asked of it yet (log entries 1 to 3). -/
def State.reset : State :=
  { tables := resetTables
    busy := false, done := false, ovr := false, err := 0
    cmd := 0, args := Operands.zero, result := 0, desc := 0, text := Vector.replicate 64 0
    latch := { cmd := 0, arg := Operands.zero }
    wait := 0, accepted := 0, latencies := [], draws := 0, host := [], returned := [] }

/-- Why the machine stops with a fault. -/
inductive Fault where
  /-- The completion step finds a latched word that is no command. Raised by `completionStep` alone, only in a state that
  no run from reset reaches (R78 latches legal words only). SAFE. -/
  | latchedWordIllegal
deriving DecidableEq, Repr

/-- Why the model refuses a step. -/
inductive Refusal where
  /-- An instruction with no meaning in this model. SAFE. -/
  | notModelled (mnemonic : String)
  /-- A host access to the window that is 8 or 16 bits wide (R52, U4: refuse). Raised by the host's access. SAFE. -/
  | subWordAccess
  /-- A host access to the window at an offset that is no multiple of 4 (R52, U4: refuse). Raised by the host's access.
  SAFE. -/
  | misalignedAccess
deriving DecidableEq, Repr

end Sys2Proof.Machine
end

