-- ==== Sys2Proof/Machine/Ops.lean ====
section
/-! DEFINITION. The named operations on the state: what the completion step writes, what ends a command, what a CMD write
does, reset. SQC has no trap and no return from one (60_exceptions.md rules R200, R207, R208): `raiseCmdError` is the one
shared operation that reports an error, and the host's acknowledgement is `acknowledge`. -/

namespace Sys2Proof.Machine

/-- Error code OK (R201). -/
def errOk : BitVec 4 := 0

/-- Error code ILLEGAL (R201). -/
def errIllegal : BitVec 4 := 1

/-- Error code DOMAIN (R201). -/
def errDomain : BitVec 4 := 2

/-- A completion step's writes of RESULT and DESC (R30). -/
def State.putOutcome (s : State) (result desc : Word) : State := { s with result := result, desc := desc }

/-- A completion step's write of the whole TEXT buffer (R38, R156). -/
def State.putText (s : State) (text : Vector Byte 64) : State := { s with text := text }

/-- The end of a completion step (R30, R201): STATUS.ERR takes the code, BUSY becomes 0 and DONE becomes 1. -/
def State.endCommand (s : State) (code : BitVec 4) : State := { s with err := code, busy := false, done := true }

/-- The end of a command that raised no error (R201). -/
def State.finish (s : State) : State := s.endCommand errOk

/-- `raise CmdError(code)` (R10, R201): ends the step, and what the step wrote before it stays. -/
def State.raiseCmdError (s : State) (code : BitVec 4) : State := s.endCommand code

/-- The latency of the next accepted command (R5, R230): the one given for it, else a free value (log entry 2). -/
def State.nextLatency (s : State) : Nat :=
  match s.latencies with
  | n :: _ => n
  | [] => Config.latency s.accepted

/-- Acceptance of a legal word (R78): CMD takes it, the engine latches it with the operands, BUSY 1 and DONE 0. -/
def State.accept (s : State) (w : Word) : State :=
  { s with
    cmd := w, latch := { cmd := w, arg := s.args }, busy := true, done := false
    wait := s.nextLatency, accepted := s.accepted + 1, latencies := s.latencies.tail }

/-- Rejection of an illegal word (R78, R202): CMD takes it, ERR is ILLEGAL and DONE is 1. -/
def State.rejectIllegal (s : State) (w : Word) : State := { s with cmd := w, err := errIllegal, done := true }

/-- A CMD write dropped for overrun (R78, R204): only OVR is set. -/
def State.overrun (s : State) : State := { s with ovr := true }

/-- A host write of `w` to CMD (R78), its checks in the order of R206. -/
def State.writeCmd (s : State) (w : Word) : State :=
  if s.busy then s.overrun
  else
    match decode w with
    | .error _ => s.rejectIllegal w
    | .ok _ => s.accept w

/-- A host write of `v` to STATUS (R23): bit 1 set clears DONE, bit 2 set clears OVR. -/
def State.acknowledge (s : State) (v : Word) : State :=
  { s with done := s.done && !v.getLsbD 1, ovr := s.ovr && !v.getLsbD 2 }

/-- Reset of the block (R41, R220, R221): every register and the hidden engine state take their reset values, and a command
in execution is abandoned. The tables are not touched (R42), and what the host does next is not the block's. -/
def State.resetBlock (s : State) : State :=
  { s with
    busy := false, done := false, ovr := false, err := 0
    cmd := 0, args := Operands.zero, result := 0, desc := 0, text := Vector.replicate 64 0
    latch := { cmd := 0, arg := Operands.zero }, wait := 0 }

/-- A host write of `v` to CTRL (R22, R221): bit 0 set resets the block, bit 0 clear does nothing. -/
def State.writeCtrl (s : State) (v : Word) : State := if v.getLsbD 0 then s.resetBlock else s

/-- A host write of ARG0 (R29). -/
def State.setArg0 (s : State) (v : Word) : State := { s with args := { s.args with arg0 := v } }

/-- A host write of ARG1 (R29). -/
def State.setArg1 (s : State) (v : Word) : State := { s with args := { s.args with arg1 := v } }

/-- A host write of ARG2 (R29). -/
def State.setArg2 (s : State) (v : Word) : State := { s with args := { s.args with arg2 := v } }

/-- A host write of ARG3 (R29). -/
def State.setArg3 (s : State) (v : Word) : State := { s with args := { s.args with arg3 := v } }

/-- One step that is not the completion step goes by (R30, R227). -/
def State.tick (s : State) : State := { s with wait := s.wait - 1 }

/-- The host's operations still to come become `ops`. -/
def State.setHost (s : State) (ops : List HostOp) : State := { s with host := ops }

/-- A read returns `v` to the host. -/
def State.giveWord (s : State) (v : Word) : State := { s with returned := v :: s.returned }

/-- One unspecified word has been drawn (R225). -/
def State.countDraw (s : State) : State := { s with draws := s.draws + 1 }

/-- The state in which the word is the accepted command and its completion step is the next step: what a CMD write of a
legal word leaves in an idle block whose command has no steps left to wait. -/
def State.loadCommand (s : State) (w : Word) : State :=
  { s with cmd := w, latch := { cmd := w, arg := s.args }, busy := true, done := false, wait := 0 }

end Sys2Proof.Machine
end

