-- ==== Sys2Proof/Machine/Flags.lean ====
section
/-! DEFINITION. The STATUS word (10_state.md rule R23) and the descriptor of each command (R37, with the layouts of R102,
R105, R124, R127, R130, R158 and R160). -/

namespace Sys2Proof.Machine

/-- The STATUS word (R23): BUSY bit 0, DONE bit 1, OVR bit 2, ERR bits 7:4, every other bit 0. -/
def State.statusWord (s : State) : Word :=
  0#24 ++ s.err ++ 0#1 ++ BitVec.ofBool s.ovr ++ BitVec.ofBool s.done ++ BitVec.ofBool s.busy

/-- LOG10's descriptor (R102): MANT bits 7:0, EXP bits 15:8. -/
def descLog10 (e n : Nat) : Word := 0#16 ++ BitVec.ofNat 8 e ++ BitVec.ofNat 8 n

/-- BERSCALE's descriptor (R105): BAND bits 3:0, DEGEN bit 4. -/
def descBerscale (degen : Bool) (k : Nat) : Word := 0#27 ++ BitVec.ofBool degen ++ BitVec.ofNat 4 k

/-- The descriptor of BERSCORE, CNRREL and SQI (R37): NOREF, FLOOR, MARGIN, ZERO, LOW, HIGH in bits 0 to 5, BSCORE bits
15:8. -/
def descQuality (bscore : BitVec 8) (high low zero margin floor noref : Bool) : Word :=
  0#16 ++ bscore ++ 0#2 ++ BitVec.ofBool high ++ BitVec.ofBool low ++ BitVec.ofBool zero
    ++ BitVec.ofBool margin ++ BitVec.ofBool floor ++ BitVec.ofBool noref

/-- The NOREF descriptor of CNRREL and SQI (R127, R130). -/
def descNoRef : Word := descQuality 0 false false false false false true

/-- `kind(ent)` (R157). -/
def kind : Entry → BitVec 2
  | .notDef => 0
  | .defined _ .dec => 1
  | .defined _ .hex => 2
  | .defined _ (.list _) => 3

/-- `listno(ent)` (R157). -/
def listNo : Entry → Nat
  | .notDef => 0
  | .defined _ .dec => 0
  | .defined _ .hex => 0
  | .defined _ (.list l) => l

/-- The descriptor of TITLE and VALUE (R158, R160): KIND bits 1:0, OOR bit 2, CLASS bits 6:4, LEN bits 15:8, LIST bits
23:16. -/
def descText (ent : Entry) (len : Nat) (cls : DecoderClass) (oor : Bool) : Word :=
  0#8 ++ BitVec.ofNat 8 (listNo ent) ++ BitVec.ofNat 8 len ++ 0#1 ++ classCode cls ++ 0#1
    ++ BitVec.ofBool oor ++ kind ent

/-- DESC.BSCORE, bits 15:8 (R37). -/
def descBscore (d : Word) : BitVec 8 := d.extractLsb' 8 8

/-- DESC.KIND, bits 1:0 (R37). -/
def descKind (d : Word) : BitVec 2 := d.extractLsb' 0 2

/-- DESC.CLASS, bits 6:4 (R37). -/
def descClass (d : Word) : BitVec 3 := d.extractLsb' 4 3

/-- DESC.LEN, bits 15:8 (R37). -/
def descLen (d : Word) : BitVec 8 := d.extractLsb' 8 8

end Sys2Proof.Machine
end

