-- ==== Sys2Proof/Machine/Operands.lean ====
section
/-! DEFINITION. What a command reads and writes: the latched operands (30_encoding.md rule R77, 10_state.md rule R30), the
renderings of a value as text (42_dispatch.md rules R153, R154) and the TEXT buffer (R38, R156). -/

namespace Sys2Proof.Machine

/-- `L.arg[0]`, an unsigned word (R77). -/
def State.operand0 (s : State) : Word := s.latch.arg.arg0

/-- `L.arg[1]`, an unsigned word (R77). -/
def State.operand1 (s : State) : Word := s.latch.arg.arg1

/-- `L.arg[2]`, an unsigned word (R77). -/
def State.operand2 (s : State) : Word := s.latch.arg.arg2

/-- `L.arg[3]`, an unsigned word (R77). -/
def State.operand3 (s : State) : Word := s.latch.arg.arg3

/-- The digits of `v` in the base, most significant first and without leading zeros; the fuel bounds their number. -/
def digits (base : Nat) : Nat → Nat → List Nat
  | 0, _ => []
  | fuel + 1, v => if v < base then [v] else digits base fuel (v / base) ++ [v % base]

/-- The ASCII byte of a digit (R153, R154): `0` to `9`, then upper-case `A` to `F`. -/
def digitByte (d : Nat) : Byte := if d < 10 then BitVec.ofNat 8 (0x30 + d) else BitVec.ofNat 8 (0x41 + (d - 10))

/-- `dec(v)` (R153). A 32-bit value has at most 10 decimal digits. -/
def decText (v : Word) : Text := (digits 10 10 v.toNat).map digitByte

/-- `hex(v)` (R154): `0x` and at most 8 digits. -/
def hexText (v : Word) : Text := [0x30, 0x78] ++ (digits 16 8 v.toNat).map digitByte

/-- The number of bytes `emit(t)` keeps, DESC.LEN (R156). -/
def emitLen (t : Text) : Nat := min t.length 63

/-- The TEXT buffer that `emit(t)` writes (R156): the first 63 bytes of the text, then zeros. -/
def emit (t : Text) : Vector Byte 64 :=
  ⟨⟨t.take 63 ++ List.replicate (64 - emitLen t) 0⟩, by simp [emitLen]; omega⟩

/-- TEXTi (R38, R51): byte `TEXT[4i+j]` is bits 8j+7 to 8j. -/
def textWord (t : Vector Byte 64) (i : Fin 16) : Word :=
  t[4 * i.val + 3] ++ t[4 * i.val + 2] ++ t[4 * i.val + 1] ++ t[4 * i.val]

end Sys2Proof.Machine
end

