-- ==== Sys2Proof/Machine/Math.lean ====
section
/-! DEFINITION. NOP, LOG10 and BERSCALE (40_math.md). Each meaning is the body of the command's completion step. -/

namespace Sys2Proof.Machine

/-- The normalising loop of LOG10 (R101, R102): divides by 10 while the value is above 100; answers the value in 1 to 100
and the number of divisions. The fuel is at least that number: a 32-bit value needs at most 8. -/
def normalise : Nat → Nat → Nat × Nat
  | 0, n => (n, 0)
  | fuel + 1, n =>
    if 100 < n then ((normalise fuel (n / 10)).1, (normalise fuel (n / 10)).2 + 1) else (n, 0)

/-- The normalised value of LOG10, MANT (R102). -/
def mantissa (v : Nat) : Nat := (normalise 8 v).1

/-- The number of divisions of LOG10, EXP (R102). -/
def exponent (v : Nat) : Nat := (normalise 8 v).2

/-- `log10fx(v)`, the RESULT of LOG10 for `v` above 0 (R102, R123). -/
def log10fx (t : Tables) (v : Nat) : Nat := 1000 * exponent v + lut t (mantissa v)

/-- The band loop of BERSCALE (R105), from `k` down: the largest band whose test passes, and 0 where none does. -/
def bandFrom : Nat → Nat → Nat
  | 0, _ => 0
  | k + 1, err => if err < 215 * 10 ^ (7 - (k + 1)) then k + 1 else bandFrom k err

/-- The band of BERSCALE (R104, R105). -/
def band (err : Nat) : Nat := bandFrom 7 err

/-- BERSCALE in the band it chooses (R105): multiply by `10^k`, divide, scale back up by `10^(7-k)`. -/
def berScaled (err tot : Nat) : Nat := err * 10 ^ band err / tot * 10 ^ (7 - band err)

/-- NOP (R100). -/
def execNop (s : State) : Host.Outcome State Fault Refusal :=
  .next (s.putOutcome 0 0).finish

/-- LOG10 (R102); of 0 it raises DOMAIN (R203). -/
def execLog10 (s : State) : Host.Outcome State Fault Refusal :=
  let v := s.operand0.toNat
  if v = 0 then .next ((s.putOutcome 0 0).raiseCmdError errDomain)
  else .next (s.putOutcome (u32 (log10fx s.tables.val v)) (descLog10 (exponent v) (mantissa v))).finish

/-- BERSCALE (R105). -/
def execBerscale (s : State) : Host.Outcome State Fault Refusal :=
  let err := s.operand0.toNat
  let tot := s.operand1.toNat
  if tot = 0 ∨ tot ≤ err then .next (s.putOutcome 10000000 (descBerscale true 0)).finish
  else .next (s.putOutcome (u32 (berScaled err tot)) (descBerscale false (band err))).finish

end Sys2Proof.Machine
end

