-- ==== Sys2Proof/Machine/Quality.lean ====
section
/-! DEFINITION. BERSCORE, CNRREL and SQI (41_sqi.md). Each meaning is the body of the command's completion step. -/

namespace Sys2Proof.Machine

/-- `cnr_rel(std, mod, cr, cnr_int, cnr_dec)` (R121): the sum wraps at 32 bits, and the difference is read as signed. -/
def cnrRel (t : Tables) (std mod cr : BitVec 4) (cnrInt cnrDec : Word) : Int :=
  let cnr := u32 (cnrInt.toNat * 100 + cnrDec.toNat)
  s32 (u32 (cnr.toNat - req t std mod cr))

/-- `beri(bit_errors, bit_total)` (R122). -/
def beri (bitErrors bitTotal : Nat) : Nat := if bitErrors = 0 then 100000000 else bitTotal / bitErrors

/-- `ber_score(b)` (R123); the division truncates toward zero (R9). -/
def berScore (t : Tables) (b : Nat) : Int :=
  if b < 1000 then 0
  else if 10000000 ≤ b then 100
  else (20 * (log10fx t b : Int) - 40000).tdiv 1000

/-- `combine(rel, score)` (R125); both divisions truncate toward zero (R9). -/
def combine (rel score : Int) : Int :=
  if rel ≤ 300 then (((rel - 300).tdiv 10 + 100) * score).tdiv 100 else score

/-- The descriptor of a BER score (R124, R130), with SQI's MARGIN. -/
def descScore (score : Int) (b : Nat) (bitErrors : Nat) (margin : Bool) : Word :=
  descQuality (BitVec.ofInt 8 score) (decide (10000000 ≤ b)) (decide (b < 1000)) (decide (bitErrors = 0)) margin false false

/-- BERSCORE (R124). -/
def execBerscore (s : State) : Host.Outcome State Fault Refusal :=
  let b := beri s.operand0.toNat s.operand1.toNat
  let score := berScore s.tables.val b
  .next (s.putOutcome (u32 score) (descScore score b s.operand0.toNat false)).finish

/-- CNRREL (R127). -/
def execCnrrel (std mod cr : BitVec 4) (s : State) : Host.Outcome State Fault Refusal :=
  if hasRef s.tables.val std mod cr then
    let rel := cnrRel s.tables.val std mod cr s.operand0 s.operand1
    .next (s.putOutcome (u32 rel)
      (descQuality 0 false false false (decide (300 < rel)) (decide (rel < -700)) false)).finish
  else .next (s.putOutcome 0 descNoRef).finish

/-- SQI (R130). -/
def execSqi (std mod cr : BitVec 4) (s : State) : Host.Outcome State Fault Refusal :=
  if hasRef s.tables.val std mod cr then
    let rel := cnrRel s.tables.val std mod cr s.operand0 s.operand1
    if rel < -700 then
      .next (s.putOutcome 0 (descQuality 0 false false false false true false)).finish
    else
      let b := beri s.operand2.toNat s.operand3.toNat
      let score := berScore s.tables.val b
      .next (s.putOutcome (u32 (combine rel score))
        (descScore score b s.operand2.toNat (decide (300 < rel)))).finish
  else .next (s.putOutcome 0 descNoRef).finish

end Sys2Proof.Machine
end

