-- ==== Sys2Proof/Machine/Telemetry.lean ====
section
/-! DEFINITION. TITLE and VALUE (42_dispatch.md). Each meaning is the body of the command's completion step. -/

namespace Sys2Proof.Machine

/-- The title text of an entry (R152, R158). -/
def titleText : Entry → Text
  | .notDef => notDefText
  | .defined title _ => title

/-- The value text of an entry and whether a list code was out of range (R152 to R155, R160). -/
def valueText (d : DispatchTables) (raw : Word) : Entry → Text × Bool
  | .notDef => (notDefText, false)
  | .defined _ .dec => (decText raw, false)
  | .defined _ .hex => (hexText raw, false)
  | .defined _ (.list l) => listText d l raw.toNat

/-- TITLE (R158). -/
def execTitle (std : BitVec 4) (id : BitVec 9) (s : State) : Host.Outcome State Fault Refusal :=
  let d := s.tables.val.dispatch
  let ent := entryOf d std id
  let t := titleText ent
  .next ((s.putText (emit t)).putOutcome 0 (descText ent (emitLen t) (classOf d std id) false)).finish

/-- VALUE (R160). -/
def execValue (std : BitVec 4) (id : BitVec 9) (s : State) : Host.Outcome State Fault Refusal :=
  let d := s.tables.val.dispatch
  let raw := s.operand0
  let ent := entryOf d std id
  let t := valueText d raw ent
  .next ((s.putText (emit t.1)).putOutcome raw (descText ent (emitLen t.1) (classOf d std id) t.2)).finish

end Sys2Proof.Machine
end

