-- ==== Sys2Proof/Machine/Dispatch.lean ====
section
/-! DEFINITION. What each command does: its completion step (10_state.md rule R30), run on the latched operands. -/

namespace Sys2Proof.Machine

def exec (i : Instr) (s : State) : Host.Outcome State Fault Refusal :=
  match i with
  | .nop => Sys2Proof.Machine.execNop s
  | .log10 => Sys2Proof.Machine.execLog10 s
  | .berscale => Sys2Proof.Machine.execBerscale s
  | .berscore => Sys2Proof.Machine.execBerscore s
  | .cnrrel std mod cr => Sys2Proof.Machine.execCnrrel std mod cr s
  | .sqi std mod cr => Sys2Proof.Machine.execSqi std mod cr s
  | .title std id => Sys2Proof.Machine.execTitle std id s
  | .value std id => Sys2Proof.Machine.execValue std id s

end Sys2Proof.Machine
end

