-- ==== Sys2Proof/Machine/Window.lean ====
section
/-! DEFINITION. The register window: the register map (10_state.md rule R20), reads and writes of a register (R21 to R38,
20_memory.md rules R50 to R56, 70_reset_and_hazards.md rule R225), and what one host operation does. -/

namespace Sys2Proof.Machine

/-- A register of the window (R20). -/
inductive Reg where
  | id | ctrl | status | cmd | arg0 | arg1 | arg2 | arg3 | result | desc
  | text (i : Fin 16)
  | reserved
deriving DecidableEq, Repr

/-- The register at an offset that is a multiple of 4 and below 0x100 (R20); reserved offsets are one name, since all of
them behave alike (R53). -/
def Reg.ofOffset (off : Nat) : Reg :=
  match off with
  | 0x00 => .id
  | 0x04 => .ctrl
  | 0x08 => .status
  | 0x0C => .cmd
  | 0x10 => .arg0
  | 0x14 => .arg1
  | 0x18 => .arg2
  | 0x1C => .arg3
  | 0x20 => .result
  | 0x24 => .desc
  | off => if 0x40 ≤ off ∧ off < 0x80 then .text (Fin.ofNat 16 ((off - 0x40) / 4)) else .reserved

/-- The offset of a register (R20); for the reserved offsets, the first one. -/
def Reg.offset : Reg → Nat
  | .id => 0x00
  | .ctrl => 0x04
  | .status => 0x08
  | .cmd => 0x0C
  | .arg0 => 0x10
  | .arg1 => 0x14
  | .arg2 => 0x18
  | .arg3 => 0x1C
  | .result => 0x20
  | .desc => 0x24
  | .text i => 0x40 + 4 * i.val
  | .reserved => 0x28

/-- The registers that hold a command's outcome: RESULT, DESC and TEXT0 to TEXT15 (R225). -/
def Reg.isOutput : Reg → Bool
  | .id => false
  | .ctrl => false
  | .status => false
  | .cmd => false
  | .arg0 => false
  | .arg1 => false
  | .arg2 => false
  | .arg3 => false
  | .result => true
  | .desc => true
  | .text _ => true
  | .reserved => false

/-- The word a register holds (R21 to R38, R53). -/
def State.content (s : State) : Reg → Word
  | .id => Config.idValue
  | .ctrl => 0
  | .status => s.statusWord
  | .cmd => s.cmd
  | .arg0 => s.args.arg0
  | .arg1 => s.args.arg1
  | .arg2 => s.args.arg2
  | .arg3 => s.args.arg3
  | .result => s.result
  | .desc => s.desc
  | .text i => textWord s.text i
  | .reserved => 0

/-- The read is one of those whose word is unspecified (R225). -/
def State.readIsDraw (s : State) (r : Reg) : Bool := s.busy && r.isOutput

/-- The word a host read of a register returns: its content, or an unspecified word (R225, log entry 3). -/
def State.readReg (s : State) (r : Reg) : Word :=
  if s.readIsDraw r then Config.unspecifiedWord s.draws else s.content r

/-- The state after a host read of a register: a read has no side effect on the block (R55), and the draws are counted. -/
def State.afterRead (s : State) (r : Reg) : State := if s.readIsDraw r then s.countDraw else s

/-- A host write of `v` to a register (R22, R23, R28, R29); a write to a read-only register or a reserved offset is
ignored (R53, R54). -/
def State.writeReg (s : State) (r : Reg) (v : Word) : State :=
  match r with
  | .id => s
  | .ctrl => s.writeCtrl v
  | .status => s.acknowledge v
  | .cmd => s.writeCmd v
  | .arg0 => s.setArg0 v
  | .arg1 => s.setArg1 v
  | .arg2 => s.setArg2 v
  | .arg3 => s.setArg3 v
  | .result => s
  | .desc => s
  | .text _ => s
  | .reserved => s

/-- The bus address is inside the window (R50). -/
def inWindow (addr : Nat) : Bool := decide (Config.sqcBase ≤ addr) && decide (addr < Config.sqcBase + 0x100)

/-- A host access of the width at the offset (R52): performed only where it is an aligned 32-bit access, else refused. -/
def checkedAccess (width : Width) (off : Nat) (s : State) : Host.Outcome State Fault Refusal :=
  match width with
  | .byte => .refused .subWordAccess
  | .half => .refused .subWordAccess
  | .word => if off % 4 = 0 then .next s else .refused .misalignedAccess

/-- A host read at a bus address (R50, R52, R55); outside the window it is not SQC's concern (log entry 10). -/
def State.busRead (s : State) (width : Width) (addr : Nat) : Host.Outcome State Fault Refusal :=
  if inWindow addr then
    let r := Reg.ofOffset (addr - Config.sqcBase)
    checkedAccess width (addr - Config.sqcBase) ((s.afterRead r).giveWord (s.readReg r))
  else .next s

/-- A host write at a bus address (R50, R52, R54); outside the window it is not SQC's concern (log entry 10). -/
def State.busWrite (s : State) (width : Width) (addr : Nat) (v : Word) : Host.Outcome State Fault Refusal :=
  if inWindow addr then
    checkedAccess width (addr - Config.sqcBase) (s.writeReg (Reg.ofOffset (addr - Config.sqcBase)) v)
  else .next s

/-- One poll of `WAIT` (R83): a read of STATUS; while BUSY reads 1 the poll is still to be done again. -/
def State.poll (s : State) : State :=
  (if s.busy then s.setHost (.wait :: s.host) else s).giveWord (s.readReg .status)

/-- What one operation from outside does. -/
def State.perform (s : State) : HostOp → Host.Outcome State Fault Refusal
  | .read width addr => s.busRead width addr
  | .write width addr v => s.busWrite width addr v
  | .wait => .next s.poll
  | .powerOn => .next s.resetBlock

/-- A step that is not the completion step (R30, R59): the host's next operation, or none, and one step less to wait. -/
def hostStep (s : State) : Host.Outcome State Fault Refusal :=
  match s.host with
  | [] => .next s.tick
  | op :: rest => (s.tick.setHost rest).perform op

end Sys2Proof.Machine
end

