-- ==== Sys2Proof/Machine/Engine.lean ====
section
/-! DEFINITION. The engine's completion step (10_state.md rule R30) and when it is taken. -/

namespace Sys2Proof.Machine

/-- The completion step is the next step: a command is in execution and no step is left to wait (R30, R227). -/
def State.completionDue (s : State) : Bool := s.busy && decide (s.wait = 0)

/-- The completion step (R30, R78): the latched command is performed. R78 latches legal words only, so the fault is never
reached from reset. -/
def completionStep (s : State) : Host.Outcome State Fault Refusal :=
  match decode s.latch.cmd with
  | .ok i => exec i s
  | .error _ => .fault .latchedWordIllegal

/-- One step of the system: the completion step where it is due, else the host's next operation (R30, R56, R59). -/
def systemStep (s : State) : Host.Outcome State Fault Refusal :=
  if s.completionDue then completionStep s else hostStep s

end Sys2Proof.Machine
end

