-- ==== Sys2Proof/Machine/Step.lean ====
section
/-! DEFINITION. One step of the machine, and the state in which a given command word is the next thing it runs. -/

namespace Sys2Proof.Machine

/-- One step: the engine's completion step where it is due, else the host's next operation. -/
def step : State → Host.Outcome State Fault Refusal := systemStep

/-- The state with the word, whose bits from `nbits` up are 0, as the accepted command, so that the next step performs it
(log entry 5). -/
def State.withFetchWord (s : State) (nbits w : Nat) : State := s.loadCommand (BitVec.ofNat 32 (w % 2 ^ nbits))

end Sys2Proof.Machine
end

