-- ==== Sys2Proof/Machine/HostProgram.lean ====
section
/-! DEFINITION. The host's assembly notation (30_encoding.md rules R81 to R83): a line of a host program and the operations
it stands for. -/

namespace Sys2Proof.Machine

/-- One line of a host program (R81). The name an `RD` gives the word it reads is the host's own and is not kept. -/
inductive HostLine where
  /-- `WR <reg>, <value>`. -/
  | wr (r : Reg) (v : Word)
  /-- `RD <reg> -> <name>`. -/
  | rd (r : Reg)
  /-- `<command> <operands>`, a write of the assembled word to CMD (R82). -/
  | command (c : AsmCommand)
  /-- `WAIT` (R83). -/
  | wait
  /-- `CLEAR` (R83). -/
  | clear
deriving DecidableEq, Repr

/-- A 32-bit write of a register. -/
def writeOp (r : Reg) (v : Word) : HostOp := .write .word (Config.sqcBase + r.offset) v

/-- A 32-bit read of a register. -/
def readOp (r : Reg) : HostOp := .read .word (Config.sqcBase + r.offset)

/-- The operation a line stands for (R81 to R83), or none where its command does not assemble. -/
def HostLine.op : HostLine → Option HostOp
  | .wr r v => some (writeOp r v)
  | .rd r => some (readOp r)
  | .command c => c.assemble.map (writeOp .cmd)
  | .wait => some .wait
  | .clear => some (writeOp .status 0x00000006)

/-- The operations of a program, in order, or none where a line does not assemble. -/
def assembleProgram : List HostLine → Option (List HostOp)
  | [] => some []
  | l :: ls =>
    match l.op, assembleProgram ls with
    | some op, some ops => some (op :: ops)
    | _, _ => none

/-- The start of a host that takes nothing for granted (R223): read ID, then soft reset. -/
def bootProgram : List HostLine := [.rd .id, .wr .ctrl 1]

end Sys2Proof.Machine
end

