-- ==== Sys2Proof/Safety.lean ====
section
/-! DEFINITION. What counts as a safe state and a safe run: the invariant of the block, the block's own part of a state, and
where a run stops. -/

namespace Sys2Proof.Machine

/-- What holds of the block in every state a run from reset reaches. -/
structure State.Inv (s : State) : Prop where
  /-- While BUSY the latched word is a command (R78). -/
  latched : s.busy = true → ∃ i, decode s.latch.cmd = .ok i
  /-- While BUSY the latched word is the one CMD shows: a write meanwhile is dropped (R28, R204). -/
  shown : s.busy = true → s.latch.cmd = s.cmd
  /-- BUSY and DONE are never 1 together (R25). -/
  exclusive : ¬ (s.busy = true ∧ s.done = true)
  /-- ERR codes 3 to 15 are never written (R27). -/
  code : s.err.toNat ≤ 2
  /-- The TEXT buffer ends in a zero byte (R156). -/
  terminated : s.text[63] = 0
  /-- No descriptor has a bit above 23 (R37). -/
  descriptor : s.desc.toNat < 2 ^ 24

/-- What the block holds that a host can read or that decides what it will do: everything but the tables and the model's
own fields. -/
structure BlockView where
  busy : Bool
  done : Bool
  ovr : Bool
  err : BitVec 4
  cmd : Word
  args : Operands
  result : Word
  desc : Word
  text : Vector Byte 64
  latch : Latch
deriving DecidableEq, Repr

/-- The block's registers and hidden engine state. -/
def State.block (s : State) : BlockView :=
  { busy := s.busy, done := s.done, ovr := s.ovr, err := s.err, cmd := s.cmd, args := s.args,
    result := s.result, desc := s.desc, text := s.text, latch := s.latch }

/-- A step is safe where it answers a next state or refuses an access the spec gives no behaviour (R52), and never
faults. -/
def StepSafe (s : State) : Prop := ∀ r, step s ≠ .fault r

/-- The operation may reset the block: power-on reset, or a 32-bit write to CTRL with bit 0 set (R220, R221). -/
def HostOp.mayReset : HostOp → Bool
  | .read _ _ => false
  | .write width addr v => decide (width = .word) && decide (addr = Config.sqcBase + 0x04) && v.getLsbD 0
  | .wait => false
  | .powerOn => true

/-- The address is outside the window, or the access is an aligned 32-bit one (R52). -/
def definedAccess (width : Width) (addr : Nat) : Bool :=
  !inWindow addr || (decide (width = .word) && decide ((addr - Config.sqcBase) % 4 = 0))

/-- The spec gives the operation a behaviour (R50, R52). -/
def HostOp.isDefined : HostOp → Bool
  | .read width addr => definedAccess width addr
  | .write width addr _ => definedAccess width addr
  | .wait => true
  | .powerOn => true

end Sys2Proof.Machine
end

