-- ==== Sys2Proof/Certificates/Slice0/Obligations.lean ====
section
/-! DEFINITION. The statements about the model, one for each rule or group of rules of the spec that says what a command or
the block does. `exec i s` is the completion step of command `i` (10_state.md rule R30), so its operands are the latched
ones, `s.latch.arg`. -/

open Sys2Proof Sys2Proof.Machine

/-! ### The command word -/

/-- R80, R82: the decoder reads back every command, with every operand at every value its field admits. -/
def Obligations.DecodeOfEncodeIsIdentity : Prop :=
  ∀ i : Instr, decode (encode i) = .ok i

/-- R79, R80: a word that decodes is the one word of the command it decodes to: no bit of a legal word is ignored (R76). -/
def Obligations.EncodeOfDecodeIsIdentity : Prop :=
  ∀ (w : Word) (i : Instr), decode w = .ok i → encode i = w

/-- R80: the opcode map by match and mask, its free fields, and that a word matching no row is illegal. The rows are
disjoint because one word decodes to one command. -/
def Obligations.OpcodeMapByMatchAndMask : Prop :=
  ∀ w : Word,
    (w &&& 0xFFFFFFFF = 0x00000000 ↔ decode w = .ok .nop) ∧
    (w &&& 0xFFFFFFFF = 0x00000001 ↔ decode w = .ok .log10) ∧
    (w &&& 0xFFFFFFFF = 0x00000002 ↔ decode w = .ok .berscale) ∧
    (w &&& 0xFFFFFFFF = 0x00000003 ↔ decode w = .ok .berscore) ∧
    (w &&& 0xFFFF000F = 0x00000004 ↔
      decode w = .ok (.cnrrel (w.extractLsb' 4 4) (w.extractLsb' 8 4) (w.extractLsb' 12 4))) ∧
    (w &&& 0xFFFF000F = 0x00000005 ↔
      decode w = .ok (.sqi (w.extractLsb' 4 4) (w.extractLsb' 8 4) (w.extractLsb' 12 4))) ∧
    (w &&& 0xFE00FF0F = 0x00000006 ↔ decode w = .ok (.title (w.extractLsb' 4 4) (w.extractLsb' 16 9))) ∧
    (w &&& 0xFE00FF0F = 0x00000007 ↔ decode w = .ok (.value (w.extractLsb' 4 4) (w.extractLsb' 16 9))) ∧
    ((∃ e, decode w = .error e) ↔
      (w ≠ 0 ∧ w ≠ 1 ∧ w ≠ 2 ∧ w ≠ 3 ∧ w &&& 0xFFFF000F ≠ 4 ∧ w &&& 0xFFFF000F ≠ 5 ∧
        w &&& 0xFE00FF0F ≠ 6 ∧ w &&& 0xFE00FF0F ≠ 7))

/-- R80: the example words, and one word of each other command, decode as the rule says. -/
def Obligations.SampleWordsDecode : Prop :=
  decode 0x00000000 = .ok .nop ∧ decode 0x00000001 = .ok .log10 ∧
  decode 0x00000002 = .ok .berscale ∧ decode 0x00000003 = .ok .berscore ∧
  decode 0x00000015 = .ok (.sqi 1 0 0) ∧ decode 0x00005325 = .ok (.sqi 2 3 5) ∧
  decode 0x00004214 = .ok (.cnrrel 1 2 4) ∧
  decode 0x01000016 = .ok (.title 1 0x100) ∧ decode 0x012C0047 = .ok (.value 4 300)

/-- R82: the assembler writes a command word exactly where every operand is in its field's range, and truncates none. -/
def Obligations.AssemblerRefusesOutOfRangeOperands : Prop :=
  (∀ std mod cr : Nat, std < 16 → mod < 16 → cr < 16 →
    (AsmCommand.cnrrel std mod cr).assemble = some (BitVec.ofNat 32 (4 + 16 * std + 256 * mod + 4096 * cr)) ∧
    (AsmCommand.sqi std mod cr).assemble = some (BitVec.ofNat 32 (5 + 16 * std + 256 * mod + 4096 * cr))) ∧
  (∀ std mod cr : Nat, 16 ≤ std ∨ 16 ≤ mod ∨ 16 ≤ cr →
    (AsmCommand.cnrrel std mod cr).assemble = none ∧ (AsmCommand.sqi std mod cr).assemble = none) ∧
  (∀ std id : Nat, std < 16 → id < 512 →
    (AsmCommand.title std id).assemble = some (BitVec.ofNat 32 (6 + 16 * std + 65536 * id)) ∧
    (AsmCommand.value std id).assemble = some (BitVec.ofNat 32 (7 + 16 * std + 65536 * id))) ∧
  (∀ std id : Nat, 16 ≤ std ∨ 512 ≤ id →
    (AsmCommand.title std id).assemble = none ∧ (AsmCommand.value std id).assemble = none) ∧
  AsmCommand.nop.assemble = some 0x00000000 ∧ AsmCommand.log10.assemble = some 0x00000001 ∧
  AsmCommand.berscale.assemble = some 0x00000002 ∧ AsmCommand.berscore.assemble = some 0x00000003

/-! ### Writing CMD -/

/-- R204, R206: a CMD write while BUSY is dropped; only OVR changes, whatever the word is. -/
def Obligations.CmdWriteWhileBusyOnlySetsOverrun : Prop :=
  ∀ (s : State) (w : Word), s.busy = true → s.writeReg .cmd w = { s with ovr := true }

/-- R79, R202: the illegal words are exactly those with OP 8 to 15 or a must-be-zero bit set, and an idle block rejects one
at the write: CMD takes it, ERR is 1, DONE is 1, and nothing else changes. -/
def Obligations.IllegalWordIsRejectedAtTheWrite : Prop :=
  ∀ w : Word,
    ((∃ e, decode w = .error e) ↔
      8 ≤ (w &&& 0xF).toNat ∨
      ((w &&& 0xF).toNat ≤ 3 ∧ w &&& 0xFFFFFFF0 ≠ 0) ∨
      (((w &&& 0xF).toNat = 4 ∨ (w &&& 0xF).toNat = 5) ∧ w &&& 0xFFFF0000 ≠ 0) ∨
      (((w &&& 0xF).toNat = 6 ∨ (w &&& 0xF).toNat = 7) ∧ w &&& 0xFE00FF00 ≠ 0)) ∧
    ∀ s : State, s.busy = false → (∃ e, decode w = .error e) →
      s.writeReg .cmd w = { s with cmd := w, err := 1, done := true }

/-- R78: an idle block accepts every word that is not illegal: it latches the word and the operands, sets BUSY and clears
DONE, and leaves OVR, ERR, RESULT, DESC, TEXT and the operand registers as they were. The number of steps to wait is the
model's LATENCY and is not stated (log entry 2). -/
def Obligations.LegalWordIsAccepted : Prop :=
  ∀ (s : State) (w : Word), s.busy = false →
    (w &&& 0xF).toNat < 8 →
    ((w &&& 0xF).toNat ≤ 3 → w &&& 0xFFFFFFF0 = 0) →
    ((w &&& 0xF).toNat = 4 ∨ (w &&& 0xF).toNat = 5 → w &&& 0xFFFF0000 = 0) →
    ((w &&& 0xF).toNat = 6 ∨ (w &&& 0xF).toNat = 7 → w &&& 0xFE00FF00 = 0) →
    (s.writeReg .cmd w).block =
      { s.block with cmd := w, latch := { cmd := w, arg := s.args }, busy := true, done := false }

/-! ### The registers -/

/-- R20: the register at each offset of the window; offsets 0x28 to 0x3C and 0x80 to 0xFC are reserved. -/
def Obligations.RegisterMapOffsets : Prop :=
  Reg.ofOffset 0x00 = .id ∧ Reg.ofOffset 0x04 = .ctrl ∧ Reg.ofOffset 0x08 = .status ∧ Reg.ofOffset 0x0C = .cmd ∧
  Reg.ofOffset 0x10 = .arg0 ∧ Reg.ofOffset 0x14 = .arg1 ∧ Reg.ofOffset 0x18 = .arg2 ∧ Reg.ofOffset 0x1C = .arg3 ∧
  Reg.ofOffset 0x20 = .result ∧ Reg.ofOffset 0x24 = .desc ∧
  (∀ i : Fin 16, Reg.ofOffset (0x40 + 4 * i.val) = .text i) ∧
  (∀ off : Nat, 0x28 ≤ off → off ≤ 0x3C → Reg.ofOffset off = .reserved) ∧
  (∀ off : Nat, 0x80 ≤ off → Reg.ofOffset off = .reserved)

/-- R21, R22, R23, R28, R29, R53, R225: what a read of a register other than RESULT, DESC and TEXT returns, BUSY or not;
STATUS bit by bit. -/
def Obligations.DefinedReadsReturnTheRegister : Prop :=
  ∀ s : State,
    s.readReg .id = 0x53510001 ∧ s.readReg .ctrl = 0 ∧ s.readReg .cmd = s.cmd ∧
    s.readReg .arg0 = s.args.arg0 ∧ s.readReg .arg1 = s.args.arg1 ∧
    s.readReg .arg2 = s.args.arg2 ∧ s.readReg .arg3 = s.args.arg3 ∧ s.readReg .reserved = 0 ∧
    (s.readReg .status).getLsbD 0 = s.busy ∧ (s.readReg .status).getLsbD 1 = s.done ∧
    (s.readReg .status).getLsbD 2 = s.ovr ∧ (s.readReg .status).getLsbD 3 = false ∧
    (s.readReg .status).extractLsb' 4 4 = s.err ∧ (s.readReg .status).extractLsb' 8 24 = 0

/-- R31, R37, R38, R51: while BUSY is 0, RESULT and DESC read as they are held, and byte `TEXT[4i+j]` is bits 8j+7 to 8j of
TEXTi. -/
def Obligations.OutputReadsWhenIdle : Prop :=
  ∀ (s : State), s.busy = false →
    s.readReg .result = s.result ∧ s.readReg .desc = s.desc ∧
    ∀ (i : Fin 16) (j : Fin 4),
      (s.readReg (.text i)).extractLsb' (8 * j.val) 8 = s.text[4 * i.val + j.val]

/-- R225: while BUSY is 1, each read of RESULT, DESC or a TEXT word returns the next free word, whatever the register
holds, and the following such read the one after it. The free words are the model's form of the rule (log entry 3). -/
def Obligations.OutputReadsWhileBusyAreFree : Prop :=
  ∀ (s : State) (r : Reg), s.busy = true → (r = .result ∨ r = .desc ∨ ∃ i, r = .text i) →
    s.readReg r = Config.unspecifiedWord s.draws ∧ s.afterRead r = { s with draws := s.draws + 1 }

/-- R55: a read changes nothing in the block, and two reads of one register with nothing between return the same word
wherever the word is specified. -/
def Obligations.ReadsHaveNoSideEffect : Prop :=
  ∀ (s : State) (r : Reg),
    (s.afterRead r).block = s.block ∧ (s.afterRead r).tables = s.tables ∧ (s.afterRead r).wait = s.wait ∧
    (s.busy = false ∨ r.isOutput = false → (s.afterRead r).readReg r = s.readReg r)

/-- R29: a write of an operand register stores the word, BUSY or not, and changes nothing else: not the latch, so not the
command in execution; a read returns the stored word. -/
def Obligations.OperandWritesStoreTheWord : Prop :=
  ∀ (s : State) (v : Word),
    s.writeReg .arg0 v = { s with args := { s.args with arg0 := v } } ∧
    s.writeReg .arg1 v = { s with args := { s.args with arg1 := v } } ∧
    s.writeReg .arg2 v = { s with args := { s.args with arg2 := v } } ∧
    s.writeReg .arg3 v = { s with args := { s.args with arg3 := v } } ∧
    (s.writeReg .arg0 v).readReg .arg0 = v ∧ (s.writeReg .arg1 v).readReg .arg1 = v ∧
    (s.writeReg .arg2 v).readReg .arg2 = v ∧ (s.writeReg .arg3 v).readReg .arg3 = v

/-- R23: a write to STATUS clears DONE where bit 1 is set and OVR where bit 2 is set, and changes nothing else. -/
def Obligations.StatusWriteClearsOnlyDoneAndOverrun : Prop :=
  ∀ (s : State) (v : Word),
    s.writeReg .status v =
      { s with
        done := if v.getLsbD 1 = true then false else s.done
        ovr := if v.getLsbD 2 = true then false else s.ovr }

/-- R22, R221, R42: a write to CTRL with bit 0 set resets the block as part of that write: the command in execution is abandoned,
STATUS, CMD, the operand registers, RESULT, DESC and TEXT are zero, and the tables stay; with bit 0 clear it does nothing;
CTRL reads 0. That the model's own fields for the host stay too is the model's reading (log entry 16). -/
def Obligations.CtrlWriteResetsTheBlock : Prop :=
  ∀ (s : State) (v : Word),
    (v.getLsbD 0 = true →
      ∃ t, s.writeReg .ctrl v = t ∧ t.busy = false ∧ t.done = false ∧ t.ovr = false ∧ t.err = 0 ∧ t.cmd = 0 ∧
        t.args = { arg0 := 0, arg1 := 0, arg2 := 0, arg3 := 0 } ∧ t.result = 0 ∧ t.desc = 0 ∧
        (∀ j : Fin 64, t.text[j] = 0) ∧ t.tables = s.tables ∧ t.host = s.host ∧ t.returned = s.returned) ∧
    (v.getLsbD 0 = false → s.writeReg .ctrl v = s) ∧
    s.readReg .ctrl = 0

/-- R53, R54: a write to a read-only register or to a reserved offset is ignored, of a write to STATUS only bits 1 and 2
count and of a write to CTRL only bit 0, and a reserved offset reads 0. -/
def Obligations.WritesToReadOnlyRegistersAreIgnored : Prop :=
  ∀ (s : State) (v : Word),
    s.writeReg .id v = s ∧ s.writeReg .result v = s ∧ s.writeReg .desc v = s ∧
    (∀ i : Fin 16, s.writeReg (.text i) v = s) ∧
    s.writeReg .status v = s.writeReg .status (v &&& 6) ∧ s.writeReg .status 0 = s ∧
    s.writeReg .ctrl v = s.writeReg .ctrl (v &&& 1) ∧ s.writeReg .ctrl 0 = s ∧
    (∀ off : Nat, (0x28 ≤ off ∧ off ≤ 0x3C) ∨ (0x80 ≤ off ∧ off ≤ 0xFC) →
      s.writeReg (Reg.ofOffset off) v = s ∧ s.readReg (Reg.ofOffset off) = 0)

/-- R50, R59: where the completion step is not due, an aligned 32-bit write inside the window is performed on the register
at its offset, and the host goes on to its next operation. -/
def Obligations.WindowWriteStep : Prop :=
  ∀ (s : State) (off : Nat) (v : Word) (rest : List HostOp),
    (s.busy = false ∨ 0 < s.wait) → off < 0x100 → off % 4 = 0 →
    s.host = .write .word (Config.sqcBase + off) v :: rest →
    step s = .next (({ s with wait := s.wait - 1, host := rest } : State).writeReg (Reg.ofOffset off) v)

/-- R50, R55, R59: where the completion step is not due, an aligned 32-bit read inside the window returns the word of the
register at its offset and changes nothing in the block. -/
def Obligations.WindowReadStep : Prop :=
  ∀ (s : State) (off : Nat) (rest : List HostOp),
    (s.busy = false ∨ 0 < s.wait) → off < 0x100 → off % 4 = 0 →
    s.host = .read .word (Config.sqcBase + off) :: rest →
    ∃ t, step s = .next t ∧ t.block = s.block ∧ t.tables = s.tables ∧ t.wait = s.wait - 1 ∧ t.host = rest ∧
      t.returned = s.readReg (Reg.ofOffset off) :: s.returned

/-- R52: an access inside the window that is not 32 bits wide, or at an offset that is no multiple of 4, is refused. The
names of the two refusals, and that the width is looked at first, are the model's (log entry 15). -/
def Obligations.UndefinedAccessesAreRefused : Prop :=
  ∀ (s : State) (width : Width) (off : Nat) (v : Word) (rest : List HostOp),
    (s.busy = false ∨ 0 < s.wait) → off < 0x100 →
    (s.host = .read width (Config.sqcBase + off) :: rest ∨ s.host = .write width (Config.sqcBase + off) v :: rest) →
    (width ≠ .word → step s = .refused .subWordAccess) ∧
    (width = .word → off % 4 ≠ 0 → step s = .refused .misalignedAccess)

/-- R50: an access outside the window does nothing to SQC and returns no word of it, which is the model's reading of `not
SQC's concern` (log entry 10). -/
def Obligations.AccessesOutsideTheWindowDoNothing : Prop :=
  ∀ (s : State) (width : Width) (addr : Nat) (v : Word) (rest : List HostOp),
    (s.busy = false ∨ 0 < s.wait) → (addr < Config.sqcBase ∨ Config.sqcBase + 0x100 ≤ addr) →
    (s.host = .read width addr :: rest ∨ s.host = .write width addr v :: rest) →
    step s = .next { s with wait := s.wait - 1, host := rest }

/-! ### NOP, LOG10, BERSCALE -/

/-- R100: NOP writes RESULT and DESC 0, ends with ERR 0, BUSY 0 and DONE 1, and leaves everything else. Its one word is 0,
and a word with OP 0 and any other bit set is illegal. -/
def Obligations.NopCompletes : Prop :=
  (∀ w : Word, (decode w = .ok .nop ↔ w = 0) ∧ (w &&& 0xF = 0 → w ≠ 0 → ∃ e, decode w = .error e)) ∧
  ∀ s : State, exec .nop s = .next { s with result := 0, desc := 0, err := 0, busy := false, done := true }

/-- R101, R102: LOG10 of 0 ends with RESULT 0, DESC 0 and ERR 2. LOG10 of a positive value, for the number `e` of divisions
by 10 that first brings it to 100 or less: RESULT is 1000 times `e` plus the table's entry, DESC holds `e` and the
normalised value, and ERR is 0. Nothing else changes. -/
def Obligations.Log10Completes : Prop :=
  (∀ w : Word, decode w = .ok .log10 ↔ w = 1) ∧
  (∀ s : State, s.latch.arg.arg0 = 0 →
    exec .log10 s = .next { s with result := 0, desc := 0, err := 2, busy := false, done := true }) ∧
  (∀ (s : State) (e : Nat), s.latch.arg.arg0 ≠ 0 →
    s.latch.arg.arg0.toNat / 10 ^ e ≤ 100 → (∀ k < e, 100 < s.latch.arg.arg0.toNat / 10 ^ k) →
    exec .log10 s = .next { s with
      result := BitVec.ofNat 32 (1000 * e + (s.tables.val.log10[s.latch.arg.arg0.toNat / 10 ^ e - 1]?).getD 0)
      desc := BitVec.ofNat 32 (256 * e + s.latch.arg.arg0.toNat / 10 ^ e)
      err := 0, busy := false, done := true })

/-- R102, R6: for every positive value and every well-formed table LOG10's normalised value is 1 to 100, its exponent at most
8, and its RESULT at most 10000, where R102's derived remark says below 10000 (log entry 14); with the default table of
R32, which the spec marks as not in the source (log entry 7), it is below 10000. -/
def Obligations.Log10ResultIsBounded : Prop :=
  ∀ s : State, s.latch.arg.arg0 ≠ 0 →
    ∃ t, exec .log10 s = .next t ∧ t.err = 0 ∧ t.result.toNat ≤ 10000 ∧
      (s.tables.val.log10 = log10Default → t.result.toNat < 10000) ∧
      1 ≤ (t.desc.extractLsb' 0 8).toNat ∧ (t.desc.extractLsb' 0 8).toNat ≤ 100 ∧
      (t.desc.extractLsb' 8 8).toNat ≤ 8

/-- R103: LOG10's result is non-decreasing in the value wherever the table is, and for a value in 1 to 100 it is the table's
entry. -/
def Obligations.Log10FollowsTheTable : Prop :=
  (∀ (s s' : State), s'.tables = s.tables → s.latch.arg.arg0 ≠ 0 →
    s.latch.arg.arg0.toNat ≤ s'.latch.arg.arg0.toNat →
    (∀ x y : Nat, x ≤ y → y < 100 → (s.tables.val.log10[x]?).getD 0 ≤ (s.tables.val.log10[y]?).getD 0) →
    ∃ t t', exec .log10 s = .next t ∧ exec .log10 s' = .next t' ∧ t.result.toNat ≤ t'.result.toNat) ∧
  (∀ s : State, 1 ≤ s.latch.arg.arg0.toNat → s.latch.arg.arg0.toNat ≤ 100 →
    ∃ t v, exec .log10 s = .next t ∧ s.tables.val.log10[s.latch.arg.arg0.toNat - 1]? = some v ∧ t.result.toNat = v)

/-- R104, R105: BERSCALE where `total = 0` or `errors >= total` gives 10000000 with DEGEN; else it works in band `k`, 7
down to 0, the largest `k` with `errors < 215 * 10^(7-k)`, and 0 where there is none. Nothing but RESULT, DESC, ERR, BUSY
and DONE changes. -/
def Obligations.BerscaleCompletes : Prop :=
  (∀ w : Word, decode w = .ok .berscale ↔ w = 2) ∧
  (∀ s : State, s.latch.arg.arg1 = 0 ∨ s.latch.arg.arg1.toNat ≤ s.latch.arg.arg0.toNat →
    exec .berscale s = .next { s with result := 10000000, desc := 0x10, err := 0, busy := false, done := true }) ∧
  (∀ (s : State) (k : Nat), s.latch.arg.arg0.toNat < s.latch.arg.arg1.toNat → k ≤ 7 →
    (k = 0 ∨ s.latch.arg.arg0.toNat < 215 * 10 ^ (7 - k)) →
    (∀ j, k < j → j ≤ 7 → 215 * 10 ^ (7 - j) ≤ s.latch.arg.arg0.toNat) →
    exec .berscale s = .next { s with
      result := BitVec.ofNat 32 (s.latch.arg.arg0.toNat * 10 ^ k / s.latch.arg.arg1.toNat * 10 ^ (7 - k))
      desc := BitVec.ofNat 32 k, err := 0, busy := false, done := true })

/-- R104, R105: BERSCALE's product stays below 2^32 in the band it names in DESC, and its result is below 10^7 unless
DEGEN. -/
def Obligations.BerscaleNeverOverflows : Prop :=
  ∀ s : State, s.latch.arg.arg0.toNat < s.latch.arg.arg1.toNat →
    ∃ t, exec .berscale s = .next t ∧ t.desc.toNat ≤ 7 ∧ t.result.toNat < 10000000 ∧
      s.latch.arg.arg0.toNat * 10 ^ t.desc.toNat < 2 ^ 32

/-- R106: for a fixed total, BERSCALE is non-decreasing in the errors within one band; and the rule's two points across a
band boundary, where it falls from 20 to 0. -/
def Obligations.BerscaleIsMonotoneWithinABand : Prop :=
  (∀ (s s' t t' : State), s.latch.arg.arg1 = s'.latch.arg.arg1 →
    s.latch.arg.arg0.toNat ≤ s'.latch.arg.arg0.toNat → s'.latch.arg.arg0.toNat < s'.latch.arg.arg1.toNat →
    exec .berscale s = .next t → exec .berscale s' = .next t' → t.desc = t'.desc →
    t.result.toNat ≤ t'.result.toNat) ∧
  (∀ s : State, s.latch.arg.arg0 = 2149 → s.latch.arg.arg1 = 1000000000 →
    ∃ t, exec .berscale s = .next t ∧ t.result = 20) ∧
  (∀ s : State, s.latch.arg.arg0 = 2150 → s.latch.arg.arg1 = 1000000000 →
    ∃ t, exec .berscale s = .next t ∧ t.result = 0)

/-! ### BERSCORE, CNRREL, SQI -/

/-- R122, R123: the score of an inverse error ratio: 0 below 1000, 100 from 10000000 up, and between them the formula on
the value that LOG10 gives for the ratio. -/
def Obligations.BerScoreFollowsTheLogarithm : Prop :=
  ∀ (t : Tables) (b e : Nat),
    (b < 1000 → berScore t b = 0) ∧ (10000000 ≤ b → berScore t b = 100) ∧
    (1000 ≤ b → b < 10000000 → b / 10 ^ e ≤ 100 → (∀ k < e, 100 < b / 10 ^ k) →
      berScore t b = (20 * (1000 * (e : Int) + ((t.log10[b / 10 ^ e - 1]?).getD 0 : Nat)) - 40000).tdiv 1000)

/-- R122, R124: BERSCORE's RESULT and its descriptor, bit by bit, for the ratio `b`: the sentinel 10^8 without errors, else
the quotient. Nothing but RESULT, DESC, ERR, BUSY and DONE changes. -/
def Obligations.BerscoreCompletes : Prop :=
  (∀ w : Word, decode w = .ok .berscore ↔ w = 3) ∧
  ∀ (s : State) (b : Nat),
    b = (if s.latch.arg.arg0 = 0 then 100000000 else s.latch.arg.arg1.toNat / s.latch.arg.arg0.toNat) →
    ∃ d : Word,
      exec .berscore s = .next { s with
        result := BitVec.ofInt 32 (berScore s.tables.val b), desc := d, err := 0, busy := false, done := true } ∧
      d.getLsbD 0 = false ∧ d.getLsbD 1 = false ∧ d.getLsbD 2 = false ∧
      d.getLsbD 3 = decide (s.latch.arg.arg0 = 0) ∧ d.getLsbD 4 = decide (b < 1000) ∧
      d.getLsbD 5 = decide (10000000 ≤ b) ∧ d.extractLsb' 6 2 = 0 ∧
      (d.extractLsb' 8 8).toNat = (berScore s.tables.val b).toNat ∧ d.extractLsb' 16 16 = 0

/-- R123, R131: with every well-formed table BERSCORE's RESULT is 0 to 100; with the default LOG10 table it is 0 or 20 to
100. -/
def Obligations.BerscoreRange : Prop :=
  ∀ s : State,
    ∃ t, exec .berscore s = .next t ∧ t.result.toNat ≤ 100 ∧
      (s.tables.val.log10 = log10Default → t.result.toNat = 0 ∨ 20 ≤ t.result.toNat)

/-- R10, R33, R120: which standards and indices have a required CNR, and that it is the entry at that modulation and code
rate in the standard's own table, of any well-formed tables. A table lists its entries one row for each modulation, which
is the model's form of it (log entry 8). -/
def Obligations.ReferenceTablesOfTwoStandards : Prop :=
  (∀ (t : Tables) (std mod cr : BitVec 4),
    hasRef t std mod cr = true ↔
      (std = 1 ∧ mod.toNat < t.dvbt.nmod ∧ cr.toNat < t.dvbt.ncr) ∨
      (std = 2 ∧ mod.toNat < t.dvbt2.nmod ∧ cr.toNat < t.dvbt2.ncr)) ∧
  ∀ (t : WfTables) (mod cr : BitVec 4),
    (hasRef t.val 1 mod cr = true →
      t.val.dvbt.req[mod.toNat * t.val.dvbt.ncr + cr.toNat]? = some (req t.val 1 mod cr)) ∧
    (hasRef t.val 2 mod cr = true →
      t.val.dvbt2.req[mod.toNat * t.val.dvbt2.ncr + cr.toNat]? = some (req t.val 2 mod cr))

/-- R121, R8: the relative CNR is the 32-bit wrap of `cnr_int * 100 + cnr_dec - required`, read as two's complement. -/
def Obligations.RelativeCnrIsTheSignedWrap : Prop :=
  ∀ (t : Tables) (std mod cr : BitVec 4) (cnrInt cnrDec : Word),
    (cnrRel t std mod cr cnrInt cnrDec) % 2 ^ 32 =
      ((cnrInt.toNat : Int) * 100 + cnrDec.toNat - req t std mod cr) % 2 ^ 32 ∧
    -2 ^ 31 ≤ cnrRel t std mod cr cnrInt cnrDec ∧ cnrRel t std mod cr cnrInt cnrDec < 2 ^ 31

/-- R127, R205: CNRREL without a reference ends with RESULT 0 and NOREF, and with one it gives the margin as a 32-bit word
and the two flags. -/
def Obligations.CnrrelCompletes : Prop :=
  ∀ (s : State) (std mod cr : BitVec 4) (rel : Int),
    rel = cnrRel s.tables.val std mod cr s.latch.arg.arg0 s.latch.arg.arg1 →
    (hasRef s.tables.val std mod cr = false →
      exec (.cnrrel std mod cr) s = .next { s with result := 0, desc := 1, err := 0, busy := false, done := true }) ∧
    (hasRef s.tables.val std mod cr = true →
      exec (.cnrrel std mod cr) s = .next { s with
        result := BitVec.ofInt 32 rel
        desc := (if 300 < rel then 4 else 0) ||| (if rel < -700 then 2 else 0)
        err := 0, busy := false, done := true })

/-- R122, R125, R130, R205: SQI without a reference, or with the relative CNR below -700, ends with RESULT 0 and the one flag
that says why. On its full path, with the relative CNR up to 300 the RESULT is the BER score scaled by the factor, above it
the score itself; the descriptor bit by bit. Nothing but RESULT, DESC, ERR, BUSY and DONE changes. -/
def Obligations.SqiCompletes : Prop :=
  ∀ (s : State) (std mod cr : BitVec 4) (rel : Int),
    rel = cnrRel s.tables.val std mod cr s.latch.arg.arg0 s.latch.arg.arg1 →
    (hasRef s.tables.val std mod cr = false →
      exec (.sqi std mod cr) s = .next { s with result := 0, desc := 1, err := 0, busy := false, done := true }) ∧
    (hasRef s.tables.val std mod cr = true → rel < -700 →
      exec (.sqi std mod cr) s = .next { s with result := 0, desc := 2, err := 0, busy := false, done := true }) ∧
    (∀ (score : Int) (b : Nat), hasRef s.tables.val std mod cr = true → -700 ≤ rel →
      b = (if s.latch.arg.arg2 = 0 then 100000000 else s.latch.arg.arg3.toNat / s.latch.arg.arg2.toNat) →
      score = berScore s.tables.val b →
      ∃ d : Word,
        exec (.sqi std mod cr) s = .next { s with
          result := BitVec.ofInt 32 (if rel ≤ 300 then (((rel - 300).tdiv 10 + 100) * score).tdiv 100 else score)
          desc := d, err := 0, busy := false, done := true } ∧
        d.getLsbD 0 = false ∧ d.getLsbD 1 = false ∧ d.getLsbD 2 = decide (300 < rel) ∧
        d.getLsbD 3 = decide (s.latch.arg.arg2 = 0) ∧ d.getLsbD 4 = decide (b < 1000) ∧
        d.getLsbD 5 = decide (10000000 ≤ b) ∧ d.extractLsb' 6 2 = 0 ∧
        (d.extractLsb' 8 8).toNat = score.toNat ∧ d.extractLsb' 16 16 = 0)

/-- R131: for every operand combination and every well-formed configuration SQI completes without an error with a RESULT in
0 to 100, and with 0 wherever the relative CNR is below -700. -/
def Obligations.SqiIsAlwaysZeroToOneHundred : Prop :=
  ∀ (s : State) (std mod cr : BitVec 4),
    ∃ t, exec (.sqi std mod cr) s = .next t ∧ t.err = 0 ∧ t.result.toNat ≤ 100 ∧
      (hasRef s.tables.val std mod cr = true →
        cnrRel s.tables.val std mod cr s.latch.arg.arg0 s.latch.arg.arg1 < -700 → t.result = 0)

/-! ### TITLE and VALUE -/

/-- R150: the decoder table of a standard and an id, and the class codes. -/
def Obligations.DecoderClassSelection : Prop :=
  ∀ (d : DispatchTables) (std : BitVec 4) (id : BitVec 9) (bound : Nat),
    classCode .common = 0 ∧ classCode .dvbt = 1 ∧ classCode .dvbt2 = 2 ∧ classCode .dvbc = 3 ∧
    classCode .isdbt = 4 ∧ classCode .isdbs = 5 ∧ classCode .generic = 6 ∧
    (d.commonEnd[std.toNat]? = some bound →
    classOf d std id =
      if id.toNat < bound then .common
      else if std = 1 then .dvbt
      else if std = 2 then .dvbt2
      else if std = 3 then .dvbc
      else if std = 4 then .isdbt
      else if std = 5 then .isdbs
      else .generic)

/-- R156: the TEXT buffer of a text: its first 63 bytes, then zeros, so that the last byte is always zero; the length kept;
and no rendering of a value is longer than 11 bytes. -/
def Obligations.EmitCutsAndZeroFills : Prop :=
  (∀ (t : Text) (j : Fin 64),
    (emit t)[j] = (if h : j.val < t.length ∧ j.val < 63 then t[j.val]'h.1 else 0) ∧
    emitLen t = (if t.length < 63 then t.length else 63)) ∧
  ∀ v : Word, (decText v).length ≤ 11 ∧ (hexText v).length ≤ 11 ∧ notDefText.length = 11

/-- R153: the decimal text of a value is its digits, most significant first: it reads back as the value, holds digits only,
and is the one digit 0 where it starts with a zero, which is where the value is 0. -/
def Obligations.DecimalTextReadsBack : Prop :=
  ∀ v : Word,
    (decText v).foldl (fun a b => 10 * a + (b.toNat - 0x30)) 0 = v.toNat ∧
    (∀ b ∈ decText v, 0x30 ≤ b.toNat ∧ b.toNat ≤ 0x39) ∧
    1 ≤ (decText v).length ∧ (decText v).length ≤ 10 ∧
    ((decText v).head? = some 0x30 → v = 0 ∧ decText v = [0x30]) ∧ (v = 0 → decText v = [0x30])

/-- R154: the hexadecimal text of a value is `0x` and its upper-case digits, most significant first: it reads back as the
value, and its digits are the one digit 0 where they start with a zero, which is where the value is 0. -/
def Obligations.HexadecimalTextReadsBack : Prop :=
  ∀ v : Word, ∃ ds : Text,
    hexText v = 0x30 :: 0x78 :: ds ∧
    ds.foldl (fun a b => 16 * a + (if b.toNat < 0x41 then b.toNat - 0x30 else b.toNat - 0x41 + 10)) 0 = v.toNat ∧
    (∀ b ∈ ds, (0x30 ≤ b.toNat ∧ b.toNat ≤ 0x39) ∨ (0x41 ≤ b.toNat ∧ b.toNat ≤ 0x46)) ∧
    1 ≤ ds.length ∧ ds.length ≤ 8 ∧ (ds.head? = some 0x30 → v = 0 ∧ ds = [0x30]) ∧ (v = 0 → ds = [0x30])

/-- R151, R152, R157, R158: TITLE writes the entry's title, or `Not Defined`, to TEXT, RESULT 0, and a descriptor with the
kind, the class code, the length and the list number; and the bytes of `Not Defined`. -/
def Obligations.TitleCompletes : Prop :=
  notDefText = [0x4E, 0x6F, 0x74, 0x20, 0x44, 0x65, 0x66, 0x69, 0x6E, 0x65, 0x64] ∧
  ∀ (s : State) (std : BitVec 4) (id : BitVec 9) (cls : DecoderClass),
    cls = classOf s.tables.val.dispatch std id →
    (info s.tables.val.dispatch cls id = .notDef →
      exec (.title std id) s = .next { s with
        text := emit notDefText, result := 0
        desc := BitVec.ofNat 32 (256 * 11 + 16 * (classCode cls).toNat), err := 0, busy := false, done := true }) ∧
    (∀ (title : Text) (fmt : Fmt), info s.tables.val.dispatch cls id = .defined title fmt →
      exec (.title std id) s = .next { s with
        text := emit title, result := 0
        desc := BitVec.ofNat 32
          ((match fmt with | .dec => 1 | .hex => 2 | .list l => 3 + 65536 * (l % 256))
            + 16 * (classCode cls).toNat + 256 * emitLen title)
        err := 0, busy := false, done := true })

/-- R151 to R155, R160: VALUE passes the raw value to RESULT and writes its rendering to TEXT: `Not Defined` for no entry,
decimal, hexadecimal, or the string of the text list, and `Not Defined` with OOR beyond the list's length. -/
def Obligations.ValueCompletes : Prop :=
  ∀ (s : State) (std : BitVec 4) (id : BitVec 9) (cls : DecoderClass) (raw : Word),
    cls = classOf s.tables.val.dispatch std id → raw = s.latch.arg.arg0 →
    (info s.tables.val.dispatch cls id = .notDef →
      exec (.value std id) s = .next { s with
        text := emit notDefText, result := raw
        desc := BitVec.ofNat 32 (256 * 11 + 16 * (classCode cls).toNat), err := 0, busy := false, done := true }) ∧
    (∀ title, info s.tables.val.dispatch cls id = .defined title .dec →
      exec (.value std id) s = .next { s with
        text := emit (decText raw), result := raw
        desc := BitVec.ofNat 32 (1 + 16 * (classCode cls).toNat + 256 * (decText raw).length)
        err := 0, busy := false, done := true }) ∧
    (∀ title, info s.tables.val.dispatch cls id = .defined title .hex →
      exec (.value std id) s = .next { s with
        text := emit (hexText raw), result := raw
        desc := BitVec.ofNat 32 (2 + 16 * (classCode cls).toNat + 256 * (hexText raw).length)
        err := 0, busy := false, done := true }) ∧
    (∀ title l strings, info s.tables.val.dispatch cls id = .defined title (.list l) →
      s.tables.val.dispatch.textLists[l]? = some strings →
      (∀ t, strings[raw.toNat]? = some t →
        exec (.value std id) s = .next { s with
          text := emit t, result := raw
          desc := BitVec.ofNat 32 (3 + 16 * (classCode cls).toNat + 256 * emitLen t + 65536 * l)
          err := 0, busy := false, done := true }) ∧
      (strings.length ≤ raw.toNat →
        exec (.value std id) s = .next { s with
          text := emit notDefText, result := raw
          desc := BitVec.ofNat 32 (7 + 16 * (classCode cls).toNat + 256 * 11 + 65536 * l)
          err := 0, busy := false, done := true }))

/-- R161: TITLE and VALUE complete for every standard, id and raw value with ERR 0, and the text they leave is at most 63
bytes, as long as DESC.LEN says, its bytes from there on zero; an id with no entry gives `Not Defined`. -/
def Obligations.DispatchIsTotal : Prop :=
  ∀ (s : State) (std : BitVec 4) (id : BitVec 9) (i : Instr), i = .title std id ∨ i = .value std id →
    ∃ t, exec i s = .next t ∧ t.err = 0 ∧ t.busy = false ∧ t.done = true ∧ (t.desc.extractLsb' 8 8).toNat ≤ 63 ∧
      (∀ j : Fin 64, (t.desc.extractLsb' 8 8).toNat ≤ j.val → t.text[j] = 0) ∧
      (info s.tables.val.dispatch (classOf s.tables.val.dispatch std id) id = .notDef →
        t.text = emit notDefText ∧ (t.desc.extractLsb' 8 8).toNat = 11)

/-- R162: TITLE and VALUE agree on DESC.CLASS and DESC.KIND for every standard and id, for all operands and from all states
with the same tables. -/
def Obligations.TitleAndValuePartitionIdsAlike : Prop :=
  ∀ (s s' : State) (std : BitVec 4) (id : BitVec 9), s'.tables = s.tables →
    ∃ t t', exec (.title std id) s = .next t ∧ exec (.value std id) s' = .next t' ∧
      t.desc.extractLsb' 4 3 = t'.desc.extractLsb' 4 3 ∧ t.desc.extractLsb' 0 2 = t'.desc.extractLsb' 0 2

/-! ### All commands -/

/-- R25, R30, R201, R203: every command completes from every state, with BUSY 0, DONE 1 and ERR 0, but LOG10 of 0, whose ERR is
2, RESULT 0 and DESC 0. -/
def Obligations.EveryCommandCompletes : Prop :=
  ∀ (i : Instr) (s : State), ∃ t, exec i s = .next t ∧ t.busy = false ∧ t.done = true ∧
    t.err = (if i = .log10 ∧ s.latch.arg.arg0 = 0 then 2 else 0) ∧
    (i = .log10 → s.latch.arg.arg0 = 0 → t.result = 0 ∧ t.desc = 0)

/-- R30, R38, R100 to R130: the frame of NOP, LOG10, BERSCALE, BERSCORE, CNRREL and SQI: they write RESULT, DESC, ERR, BUSY
and DONE, and nothing else; every byte of TEXT stays. -/
def Obligations.ArithmeticCommandsFrame : Prop :=
  ∀ (i : Instr) (s t : State), (∀ std id, i ≠ .title std id) → (∀ std id, i ≠ .value std id) → exec i s = .next t →
    t = { s with result := t.result, desc := t.desc, err := t.err, busy := t.busy, done := t.done }

/-- R30, R38, R158, R160: the frame of TITLE and VALUE: they write TEXT, RESULT, DESC, ERR, BUSY and DONE, and nothing
else. -/
def Obligations.TelemetryCommandsFrame : Prop :=
  ∀ (std : BitVec 4) (id : BitVec 9) (i : Instr) (s t : State), i = .title std id ∨ i = .value std id →
    exec i s = .next t →
    t = { s with
      text := t.text, result := t.result, desc := t.desc, err := t.err, busy := t.busy, done := t.done }

/-- R30, R40: the outcome of a command depends on the command, its latched operands and the tables alone: whatever else
differs between two states, RESULT, DESC, ERR and the TEXT of TITLE and VALUE come out the same. -/
def Obligations.OutcomeDependsOnTheLatchAlone : Prop :=
  ∀ (i : Instr) (s s' : State), s'.latch.arg = s.latch.arg → s'.tables = s.tables →
    ∃ t t', exec i s = .next t ∧ exec i s' = .next t' ∧
      t'.result = t.result ∧ t'.desc = t.desc ∧ t'.err = t.err ∧
      ((∃ std id, i = .title std id ∨ i = .value std id) → t'.text = t.text)

/-! ### The machine -/

/-- R30, R78: while BUSY with no step left to wait, a step is the completion step of the latched command, and nothing is
added around it. -/
def Obligations.StepRunsTheLatchedCommand : Prop :=
  ∀ (s : State) (i : Instr), s.busy = true → s.wait = 0 → decode s.latch.cmd = .ok i → step s = exec i s

/-- R41, R220, R222: the state after reset, and the state a power-on reset leaves in place of any other: every register
reads zero but ID, every TEXT byte is zero, no command is in execution, and the tables are untouched. That power-on
reset is an operation of the host's list is the model's choice (log entry 13), and that the rest of that list stays is the
model's reading (log entry 16). The values of the tables, of the empty latch and of the model's other fields are not
stated. -/
def Obligations.PowerOnResetState : Prop :=
  (∀ r : Reg, r ≠ .id → State.reset.readReg r = 0) ∧ State.reset.readReg .id = 0x53510001 ∧
  State.reset.busy = false ∧ (∀ j : Fin 64, State.reset.text[j] = 0) ∧
  ∀ (s : State) (rest : List HostOp), (s.busy = false ∨ 0 < s.wait) → s.host = .powerOn :: rest →
    ∃ t, step s = .next t ∧ (∀ r : Reg, r ≠ .id → t.readReg r = 0) ∧ t.readReg .id = 0x53510001 ∧
      t.busy = false ∧ (∀ j : Fin 64, t.text[j] = 0) ∧ t.tables = s.tables ∧ t.host = rest

/-- R41: the state after reset meets the invariant. -/
def Obligations.ResetMeetsTheInvariant : Prop := State.reset.Inv

/-- R27, R28, R78, R156: every step that answers a next state keeps the invariant: the latched word stays a legal command
that CMD shows, BUSY and DONE are never 1 together, ERR is never 3 to 15, TEXT ends in a zero byte. -/
def Obligations.StepKeepsTheInvariant : Prop :=
  ∀ s t : State, s.Inv → step s = .next t → t.Inv

/-- R200: from a state that meets the invariant no step faults: the block has no trap. -/
def Obligations.NoStepFaultsUnderTheInvariant : Prop :=
  ∀ s : State, s.Inv → StepSafe s

/-- R42: no step changes a read-only table. -/
def Obligations.NoStepChangesTheTables : Prop :=
  ∀ s t : State, step s = .next t → t.tables = s.tables

/-- R26: a CMD write while BUSY sets OVR; a write of 1 to STATUS bit 2 clears it; a step that clears OVR is a 32-bit write
of STATUS with bit 2 set, or a reset. -/
def Obligations.OverrunIsSticky : Prop :=
  (∀ (s : State) (w : Word), s.busy = true → (s.writeReg .cmd w).ovr = true) ∧
  (∀ (s : State) (v : Word), v.getLsbD 2 = true → (s.writeReg .status v).ovr = false) ∧
  ∀ s t : State, step s = .next t → s.ovr = true → t.ovr = false →
    ∃ op rest, s.host = op :: rest ∧
      (op.mayReset = true ∨ ∃ v : Word, op = .write .word (Config.sqcBase + 0x08) v ∧ v.getLsbD 2 = true)

/-- R24: BUSY is set only by the acceptance of a legal word written to CMD, and cleared only by a completion step or a
reset. -/
def Obligations.BusyChangesOnlyByAcceptanceCompletionAndReset : Prop :=
  ∀ s t : State, step s = .next t →
    (s.busy = false → t.busy = true →
      ∃ w rest i, s.host = .write .word (Config.sqcBase + 0x0C) w :: rest ∧ decode w = .ok i ∧
        t.latch = { cmd := w, arg := s.args }) ∧
    (s.busy = true → t.busy = false →
      (∃ i, s.wait = 0 ∧ decode s.latch.cmd = .ok i ∧ exec i s = .next t) ∨
      ∃ op rest, s.host = op :: rest ∧ op.mayReset = true)

/-- R31, R38, R60: RESULT, DESC and TEXT change only in a completion step or a reset. -/
def Obligations.OutcomeIsStableUntilCompletionOrReset : Prop :=
  ∀ s t : State, step s = .next t → (s.busy = false ∨ 0 < s.wait) →
    (∀ op rest, s.host = op :: rest → op.mayReset = false) →
    t.result = s.result ∧ t.desc = s.desc ∧ t.text = s.text

/-- R227, R230: whatever the host does meanwhile, short of a reset or an undefined access, the command in execution
completes after exactly the steps left to wait, which is the model's form of LATENCY (log entry 2), and with the operands
it was accepted with. -/
def Obligations.CompletionIsReached : Prop :=
  ∀ (s : State) (i : Instr), s.busy = true → decode s.latch.cmd = .ok i →
    (∀ op ∈ s.host, op.mayReset = false ∧ op.isDefined = true) →
    ∃ t, core.run s.wait s = .next t ∧ t.busy = true ∧ t.wait = 0 ∧ t.latch = s.latch ∧ t.tables = s.tables ∧
      core.run (s.wait + 1) s = exec i t

/-- R83, R227: a WAIT issued while a command is in execution ends: it reads STATUS with BUSY 1 once for each step left to
wait, and then, after the completion step, once with BUSY 0 and DONE 1, and the host goes on. The steps are the model's form
of LATENCY and of the polling loop (log entries 2 and 12). -/
def Obligations.WaitEndsWithDone : Prop :=
  ∀ (s : State) (i : Instr) (rest : List HostOp), s.busy = true → decode s.latch.cmd = .ok i →
    s.host = .wait :: rest →
    (s.readReg .status).getLsbD 0 = true ∧
    ∃ t w, core.run (s.wait + 2) s = .next t ∧ t.host = rest ∧ t.busy = false ∧ t.done = true ∧
      t.returned = w :: (List.replicate s.wait (s.readReg .status) ++ s.returned) ∧
      w.getLsbD 0 = false ∧ w.getLsbD 1 = true

/-- R35, R151: the entry of a class and an id is that of the first row listed for the pair, and `NotDef` where no row is
listed for it, which is the model's form of the table (log entry 11); the entry of a standard and an id is that of the
class the standard and the id select. -/
def Obligations.InfoIsTheRowOfTheClassAndId : Prop :=
  (∀ (d : DispatchTables) (cls : DecoderClass) (id : BitVec 9),
    (∀ (above below : List InfoRow) (row : InfoRow), d.info = above ++ row :: below →
      row.cls = cls → row.id = id.toNat → (∀ r ∈ above, r.cls = cls → r.id ≠ id.toNat) →
      info d cls id = row.entry) ∧
    ((∀ r ∈ d.info, r.cls = cls → r.id ≠ id.toNat) → info d cls id = .notDef)) ∧
  ∀ (d : DispatchTables) (std : BitVec 4) (id : BitVec 9), entryOf d std id = info d (classOf d std id) id
end

