-- ==== Sys2Proof/Laws/Words.lean ====
section
/-! SUPPORT. Words as numbers: what each command word, field, mask, descriptor and the STATUS word is as a natural number, so
that a statement about bits becomes arithmetic. -/

namespace Sys2Proof

/-- `{a, b}` as a number (R7). -/
theorem append_toNat {m n : Nat} (x : BitVec m) (y : BitVec n) : (x ++ y).toNat = x.toNat * 2 ^ n + y.toNat := by
  rw [BitVec.toNat_append, ← Nat.shiftLeft_add_eq_or_of_lt y.isLt, Nat.shiftLeft_eq]

/-- `v[k+n-1:k]` as a number (R7). -/
theorem field_toNat (w : Word) (k n : Nat) : (w.extractLsb' k n).toNat = w.toNat / 2 ^ k % 2 ^ n := by
  simp [BitVec.extractLsb'_toNat, Nat.shiftRight_eq_div_pow]

/-- `v[i]` by division (R7). -/
theorem bit_eq (w : Word) (i : Nat) : w.getLsbD i = decide (w.toNat / 2 ^ i % 2 = 1) := by
  rw [← BitVec.testBit_toNat, Nat.testBit_eq_decide_div_mod_eq]

theorem opField_toNat (w : Word) : (opField w).toNat = w.toNat % 16 :=
  (field_toNat w 0 4).trans (by simp)
theorem stdField_toNat (w : Word) : (stdField w).toNat = w.toNat / 16 % 16 :=
  field_toNat w 4 4
theorem modField_toNat (w : Word) : (modField w).toNat = w.toNat / 256 % 16 :=
  field_toNat w 8 4
theorem crField_toNat (w : Word) : (crField w).toNat = w.toNat / 4096 % 16 :=
  field_toNat w 12 4
theorem idField_toNat (w : Word) : (idField w).toNat = w.toNat / 65536 % 512 :=
  field_toNat w 16 9

/-! The command words (R82). -/

theorem encode_nop_toNat : (encode .nop).toNat = 0 := rfl
theorem encode_log10_toNat : (encode .log10).toNat = 1 := rfl
theorem encode_berscale_toNat : (encode .berscale).toNat = 2 := rfl
theorem encode_berscore_toNat : (encode .berscore).toNat = 3 := rfl

theorem encode_cnrrel_toNat (std mod cr : BitVec 4) :
    (encode (.cnrrel std mod cr)).toNat = 4 + 16 * std.toNat + 256 * mod.toNat + 4096 * cr.toNat := by
  refine (append_toNat (0#7 ++ 0#9 ++ cr ++ mod ++ std) 4#4).trans ?_
  simp only [append_toNat, BitVec.toNat_ofNat]
  omega

theorem encode_sqi_toNat (std mod cr : BitVec 4) :
    (encode (.sqi std mod cr)).toNat = 5 + 16 * std.toNat + 256 * mod.toNat + 4096 * cr.toNat := by
  refine (append_toNat (0#7 ++ 0#9 ++ cr ++ mod ++ std) 5#4).trans ?_
  simp only [append_toNat, BitVec.toNat_ofNat]
  omega

theorem encode_title_toNat (std : BitVec 4) (id : BitVec 9) :
    (encode (.title std id)).toNat = 6 + 16 * std.toNat + 65536 * id.toNat := by
  refine (append_toNat (0#7 ++ id ++ 0#8 ++ std) 6#4).trans ?_
  simp only [append_toNat, BitVec.toNat_ofNat]
  omega

theorem encode_value_toNat (std : BitVec 4) (id : BitVec 9) :
    (encode (.value std id)).toNat = 7 + 16 * std.toNat + 65536 * id.toNat := by
  refine (append_toNat (0#7 ++ id ++ 0#8 ++ std) 7#4).trans ?_
  simp only [append_toNat, BitVec.toNat_ofNat]
  omega

/-! The masks (R72, R80). -/

theorem land_shiftLeft (a b n : Nat) : a &&& (b <<< n) = ((a >>> n) &&& b) <<< n := by
  apply Nat.eq_of_testBit_eq
  intro i
  simp only [Nat.testBit_land, Nat.testBit_shiftLeft, Nat.testBit_shiftRight]
  by_cases h : n ≤ i <;> simp [h]

/-- Masking with a run of ones keeps that field in place. -/
theorem land_mask (a len n : Nat) : a &&& ((2 ^ len - 1) <<< n) = a / 2 ^ n % 2 ^ len * 2 ^ n := by
  rw [land_shiftLeft, Nat.and_two_pow_sub_one_eq_mod, Nat.shiftLeft_eq, Nat.shiftRight_eq_div_pow]

/-- The union of two fields, the first above the second, is their sum. -/
theorem lor_eq_add (a b n : Nat) (h : b < 2 ^ n) : a * 2 ^ n ||| b = a * 2 ^ n + b := by
  rw [← Nat.shiftLeft_eq, Nat.shiftLeft_add_eq_or_of_lt h]

theorem and_op_toNat (w : Word) : (w &&& 0xF).toNat = w.toNat % 16 := by
  have h : (0xF : Word).toNat = 2 ^ 4 - 1 := by decide
  rw [BitVec.toNat_and, h, Nat.and_two_pow_sub_one_eq_mod]

theorem and_above_op_toNat (w : Word) : (w &&& 0xFFFFFFF0).toNat = w.toNat / 16 * 16 := by
  have h : (0xFFFFFFF0 : Word).toNat = (2 ^ 28 - 1) <<< 4 := by decide
  rw [BitVec.toNat_and, h, land_mask]
  omega

theorem and_high_half_toNat (w : Word) : (w &&& 0xFFFF0000).toNat = w.toNat / 65536 * 65536 := by
  have h : (0xFFFF0000 : Word).toNat = (2 ^ 16 - 1) <<< 16 := by decide
  rw [BitVec.toNat_and, h, land_mask]
  omega

theorem and_cnr_mask_toNat (w : Word) :
    (w &&& 0xFFFF000F).toNat = w.toNat / 65536 * 65536 + w.toNat % 16 := by
  have h : (0xFFFF000F : Word).toNat = ((2 ^ 16 - 1) <<< 16) ||| (2 ^ 4 - 1) := by decide
  rw [BitVec.toNat_and, h, Nat.and_or_distrib_left, land_mask, Nat.and_two_pow_sub_one_eq_mod,
    lor_eq_add _ _ _ (by omega)]
  omega

theorem and_text_mbz_toNat (w : Word) :
    (w &&& 0xFE00FF00).toNat = w.toNat / 33554432 * 33554432 + w.toNat / 256 % 256 * 256 := by
  have h : (0xFE00FF00 : Word).toNat = ((2 ^ 7 - 1) <<< 25) ||| ((2 ^ 8 - 1) <<< 8) := by decide
  rw [BitVec.toNat_and, h, Nat.and_or_distrib_left, land_mask, land_mask, lor_eq_add _ _ _ (by omega)]
  omega

theorem and_text_mask_toNat (w : Word) :
    (w &&& 0xFE00FF0F).toNat = w.toNat / 33554432 * 33554432 + w.toNat / 256 % 256 * 256 + w.toNat % 16 := by
  have h : (0xFE00FF0F : Word).toNat = ((2 ^ 7 - 1) <<< 25) ||| (((2 ^ 8 - 1) <<< 8) ||| (2 ^ 4 - 1)) := by decide
  rw [BitVec.toNat_and, h, Nat.and_or_distrib_left, Nat.and_or_distrib_left, land_mask, land_mask,
    Nat.and_two_pow_sub_one_eq_mod, lor_eq_add (w.toNat / 2 ^ 8 % 2 ^ 8) _ _ (by omega), lor_eq_add _ _ _ (by omega)]
  omega

/-! What the decoder answers (R78, R79), by arithmetic on the word. -/

/-- OP is one of the eight operations or reserved (R71). -/
theorem op_cases (w : Word) :
    w.toNat % 16 = 0 ∨ w.toNat % 16 = 1 ∨ w.toNat % 16 = 2 ∨ w.toNat % 16 = 3 ∨ w.toNat % 16 = 4 ∨
      w.toNat % 16 = 5 ∨ w.toNat % 16 = 6 ∨ w.toNat % 16 = 7 ∨ 8 ≤ w.toNat % 16 := by omega

/-- What OP selects (R71). -/
theorem commandOf_op (w : Word) :
    (w.toNat % 16 = 0 → commandOf w = some .nop) ∧ (w.toNat % 16 = 1 → commandOf w = some .log10) ∧
    (w.toNat % 16 = 2 → commandOf w = some .berscale) ∧ (w.toNat % 16 = 3 → commandOf w = some .berscore) ∧
    (w.toNat % 16 = 4 → commandOf w = some (.cnrrel (stdField w) (modField w) (crField w))) ∧
    (w.toNat % 16 = 5 → commandOf w = some (.sqi (stdField w) (modField w) (crField w))) ∧
    (w.toNat % 16 = 6 → commandOf w = some (.title (stdField w) (idField w))) ∧
    (w.toNat % 16 = 7 → commandOf w = some (.value (stdField w) (idField w))) ∧
    (8 ≤ w.toNat % 16 → commandOf w = none) := by
  refine ⟨?_, ?_, ?_, ?_, ?_, ?_, ?_, ?_, ?_⟩ <;> intro h <;> simp only [commandOf, opField_toNat]
  all_goals first
    | simp only [h]
    | (obtain ⟨k, hk⟩ : ∃ k, w.toNat % 16 = k + 8 := ⟨w.toNat % 16 - 8, by omega⟩
       rw [hk]
       rfl)

/-- The word has no must-be-zero bit of its operation set (R72). -/
theorem mbz_clear_iff (w : Word) (i : Instr) (h : commandOf w = some i) :
    w &&& mbz (opField w) = 0 ↔
      (w.toNat % 16 ≤ 3 → w.toNat < 16) ∧ (w.toNat % 16 = 4 ∨ w.toNat % 16 = 5 → w.toNat < 65536) ∧
      (w.toNat % 16 = 6 ∨ w.toNat % 16 = 7 → w.toNat < 33554432 ∧ w.toNat / 256 % 256 = 0) := by
  have hz : (0 : Word).toNat = 0 := rfl
  rw [← BitVec.toNat_inj, hz]
  simp only [mbz, commandOf, opField_toNat] at h ⊢
  split at h <;> (try simp at h) <;> rename_i hop <;> simp only [hop, and_above_op_toNat, and_high_half_toNat,
    and_text_mbz_toNat] <;> first | omega | simp

/-- A word decodes to a command where OP selects it and no must-be-zero bit is set (R78). -/
theorem decode_ok_iff (w : Word) (i : Instr) :
    decode w = .ok i ↔ commandOf w = some i ∧ w &&& mbz (opField w) = 0 := by
  unfold decode
  split
  · simp_all
  · split <;> simp_all

/-- A word is illegal where OP is reserved or a must-be-zero bit is set (R79). -/
theorem decode_error_iff (w : Word) :
    (∃ e, decode w = .error e) ↔ commandOf w = none ∨ w &&& mbz (opField w) ≠ 0 := by
  unfold decode
  split
  · simp_all
  · split <;> simp_all

/-- What a legal word is, by arithmetic (R72, R79). -/
abbrev LegalNat (n : Nat) : Prop :=
  n % 16 < 8 ∧ (n % 16 ≤ 3 → n < 16) ∧ (n % 16 = 4 ∨ n % 16 = 5 → n < 65536) ∧
    (n % 16 = 6 ∨ n % 16 = 7 → n < 33554432 ∧ n / 256 % 256 = 0)

/-- The illegal words (R79) by arithmetic. -/
theorem decode_error_iff_nat (w : Word) : (∃ e, decode w = .error e) ↔ ¬ LegalNat w.toNat := by
  rw [decode_error_iff]
  obtain ⟨c0, c1, c2, c3, c4, c5, c6, c7, c8⟩ := commandOf_op w
  rcases op_cases w with o | o | o | o | o | o | o | o | o
  · rw [ne_eq, mbz_clear_iff w _ (c0 o), c0 o]; simp; omega
  · rw [ne_eq, mbz_clear_iff w _ (c1 o), c1 o]; simp; omega
  · rw [ne_eq, mbz_clear_iff w _ (c2 o), c2 o]; simp; omega
  · rw [ne_eq, mbz_clear_iff w _ (c3 o), c3 o]; simp; omega
  · rw [ne_eq, mbz_clear_iff w _ (c4 o), c4 o]; simp; omega
  · rw [ne_eq, mbz_clear_iff w _ (c5 o), c5 o]; simp; omega
  · rw [ne_eq, mbz_clear_iff w _ (c6 o), c6 o]; simp; omega
  · rw [ne_eq, mbz_clear_iff w _ (c7 o), c7 o]; simp; omega
  · simp [c8 o]; omega

/-- A word is a command or illegal, and not both (R79). -/
theorem decode_total (w : Word) : (∃ i, decode w = .ok i) ∨ ∃ e, decode w = .error e := by
  rcases decode w with e | i
  · exact .inr ⟨e, rfl⟩
  · exact .inl ⟨i, rfl⟩

end Sys2Proof

namespace Sys2Proof.Machine

/-! The STATUS word and the descriptors (R23, R37). -/

theorem State.statusWord_toNat (s : State) :
    s.statusWord.toNat = s.busy.toNat + 2 * s.done.toNat + 4 * s.ovr.toNat + 16 * s.err.toNat := by
  refine (append_toNat (0#24 ++ s.err ++ 0#1 ++ BitVec.ofBool s.ovr ++ BitVec.ofBool s.done) _).trans ?_
  simp only [append_toNat, BitVec.toNat_ofNat, BitVec.toNat_ofBool]
  omega

theorem State.statusWord_busy (s : State) : s.statusWord.getLsbD 0 = s.busy := by
  have hn := s.statusWord_toNat
  rw [bit_eq]
  cases h : s.busy <;> simp [h] at hn <;> simp <;> omega

theorem State.statusWord_done (s : State) : s.statusWord.getLsbD 1 = s.done := by
  have hn := s.statusWord_toNat
  have b0 := Bool.toNat_le s.busy
  rw [bit_eq]
  cases h : s.done <;> simp [h] at hn <;> simp <;> omega

theorem descLog10_toNat (e n : Nat) : (descLog10 e n).toNat = 256 * (e % 256) + n % 256 := by
  refine (append_toNat (0#16 ++ BitVec.ofNat 8 e) (BitVec.ofNat 8 n)).trans ?_
  simp only [append_toNat, BitVec.toNat_ofNat]
  omega

theorem descBerscale_toNat (degen : Bool) (k : Nat) : (descBerscale degen k).toNat = 16 * degen.toNat + k % 16 := by
  refine (append_toNat (0#27 ++ BitVec.ofBool degen) (BitVec.ofNat 4 k)).trans ?_
  simp only [append_toNat, BitVec.toNat_ofNat, BitVec.toNat_ofBool]
  omega

theorem descQuality_toNat (bscore : BitVec 8) (high low zero margin floor noref : Bool) :
    (descQuality bscore high low zero margin floor noref).toNat =
      noref.toNat + 2 * floor.toNat + 4 * margin.toNat + 8 * zero.toNat + 16 * low.toNat + 32 * high.toNat
        + 256 * bscore.toNat := by
  refine (append_toNat (0#16 ++ bscore ++ 0#2 ++ BitVec.ofBool high ++ BitVec.ofBool low ++ BitVec.ofBool zero
    ++ BitVec.ofBool margin ++ BitVec.ofBool floor) _).trans ?_
  simp only [append_toNat, BitVec.toNat_ofNat, BitVec.toNat_ofBool]
  omega

theorem descText_toNat (ent : Entry) (len : Nat) (cls : DecoderClass) (oor : Bool) :
    (descText ent len cls oor).toNat =
      (kind ent).toNat + 4 * oor.toNat + 16 * (classCode cls).toNat + 256 * (len % 256) + 65536 * (listNo ent % 256) := by
  refine (append_toNat (0#8 ++ BitVec.ofNat 8 (listNo ent) ++ BitVec.ofNat 8 len ++ 0#1 ++ classCode cls ++ 0#1
    ++ BitVec.ofBool oor) (kind ent)).trans ?_
  simp only [append_toNat, BitVec.toNat_ofNat, BitVec.toNat_ofBool]
  omega

/-- No descriptor has a bit above 23 (R37). -/
theorem descText_lt (ent : Entry) (len : Nat) (cls : DecoderClass) (oor : Bool) :
    (descText ent len cls oor).toNat < 2 ^ 24 := by
  rw [descText_toNat]
  have := (kind ent).isLt
  have := (classCode cls).isLt
  have := Bool.toNat_le oor
  omega

end Sys2Proof.Machine
end

