-- ==== Sys2Proof/Laws/Math.lean ====
section
/-! SUPPORT. The normalising loop of LOG10 (R101, R102), the bands of BERSCALE (R104, R105), and what a well-formed LOG10
table gives (R6). -/

namespace Sys2Proof.Machine

/-- What the loop answers: the quotient by the power of ten, the least power that brings it to 100 or less. -/
theorem normalise_spec (fuel n : Nat) :
    (normalise fuel n).1 = n / 10 ^ (normalise fuel n).2 ∧ (∀ k < (normalise fuel n).2, 100 < n / 10 ^ k) ∧
    (n < 101 * 10 ^ fuel → (normalise fuel n).1 ≤ 100) ∧ (normalise fuel n).2 ≤ fuel := by
  induction fuel generalizing n with
  | zero => simp [normalise]; omega
  | succ f ih =>
    unfold normalise
    split
    · rename_i h
      obtain ⟨h1, h2, h3, h4⟩ := ih (n / 10)
      refine ⟨?_, ?_, ?_, by simpa using h4⟩
      · rw [h1, Nat.div_div_eq_div_mul, ← Nat.pow_succ']
      · intro k hk
        cases k with
        | zero => simpa using h
        | succ j => rw [Nat.pow_succ', ← Nat.div_div_eq_div_mul]; exact h2 j (by simpa using hk)
      · intro hn
        exact h3 (by rw [Nat.pow_succ] at hn; omega)
    · rename_i h
      simp; omega

/-- The least exponent is the only one: the loop's answer from its two properties. -/
theorem exponent_unique (v e : Nat) (hv : v < 2 ^ 32) (h1 : v / 10 ^ e ≤ 100) (h2 : ∀ k < e, 100 < v / 10 ^ k) :
    exponent v = e ∧ mantissa v = v / 10 ^ e := by
  obtain ⟨a, b, c, _⟩ := normalise_spec 8 v
  have hle : (normalise 8 v).1 ≤ 100 := c (by omega)
  have he : (normalise 8 v).2 = e := by
    rcases Nat.lt_trichotomy (normalise 8 v).2 e with h | h | h
    · have := h2 _ h
      omega
    · exact h
    · have := b _ h
      omega
  exact ⟨he, by rw [mantissa, a, he]⟩

theorem mantissa_le (v : Nat) (hv : v < 2 ^ 32) : mantissa v ≤ 100 := (normalise_spec 8 v).2.2.1 (by omega)

theorem exponent_le (v : Nat) : exponent v ≤ 8 := (normalise_spec 8 v).2.2.2

/-- After at least one division the value was above 100, so the quotient is at least 10. -/
theorem ten_le_mantissa (v : Nat) (h : exponent v ≠ 0) : 10 ≤ mantissa v := by
  obtain ⟨a, b, _, _⟩ := normalise_spec 8 v
  obtain ⟨k, hk⟩ := Nat.exists_eq_succ_of_ne_zero h
  have hb := b k (by unfold exponent at hk; omega)
  rw [mantissa, a, show (normalise 8 v).2 = k + 1 from hk, Nat.pow_succ, ← Nat.div_div_eq_div_mul]
  omega

theorem mantissa_pos (v : Nat) (hv : 0 < v) : 1 ≤ mantissa v := by
  by_cases h : exponent v = 0
  · have := (normalise_spec 8 v).1
    rw [show (normalise 8 v).2 = 0 from h] at this
    simp [mantissa] at *
    omega
  · have := ten_le_mantissa v h
    omega

/-- A larger value has no smaller exponent, and with the same exponent no smaller mantissa. -/
theorem normalise_mono (v w : Nat) (hw : w < 2 ^ 32) (h : v ≤ w) :
    exponent v ≤ exponent w ∧ (exponent v = exponent w → mantissa v ≤ mantissa w) := by
  obtain ⟨a, b, _, _⟩ := normalise_spec 8 v
  obtain ⟨a', _, c', _⟩ := normalise_spec 8 w
  constructor
  · by_contra hlt
    have h1 := b (exponent w) (by unfold exponent at *; omega)
    have h2 : v / 10 ^ exponent w ≤ w / 10 ^ exponent w := Nat.div_le_div_right h
    have h3 : w / 10 ^ exponent w ≤ 100 := by
      have := c' (by omega)
      rw [a'] at this
      exact this
    omega
  · intro he
    rw [mantissa, mantissa, a, a']
    unfold exponent at he
    rw [he]
    exact Nat.div_le_div_right h

/-- What a well-formed configuration says of the LOG10 table (R6). -/
theorem log10Wf_of (t : WfTables) :
    t.val.log10.length = 100 ∧ (∀ v ∈ t.val.log10, v ≤ 2000) ∧ t.val.log10[0]? = some 0 ∧
      t.val.log10[9]? = some 1000 ∧ t.val.log10[99]? = some 2000 := by
  have h := t.property
  simp only [Tables.wf, log10Wf, Bool.and_eq_true, decide_eq_true_eq, List.all_eq_true] at h
  tauto

/-- Every entry the commands read is at most 2000 (R6). -/
theorem lut_le (t : WfTables) (x : Nat) : lut t.val x ≤ 2000 := by
  unfold lut
  rcases h : t.val.log10[x - 1]? with _ | v
  · simp
  · exact (log10Wf_of t).2.1 v (List.mem_of_getElem? h)

theorem lut_ten (t : WfTables) : lut t.val 10 = 1000 := by
  have := (log10Wf_of t).2.2.2.1
  simp [lut, this]

theorem lut_hundred (t : WfTables) : lut t.val 100 = 2000 := by
  have := (log10Wf_of t).2.2.2.2
  simp [lut, this]

/-- `log10fx` of a 32-bit value is below 10001, and 10000 only with an entry of 2000 after eight divisions. -/
theorem log10fx_le (t : WfTables) (v : Nat) : log10fx t.val v ≤ 10000 := by
  have h1 := lut_le t (mantissa v)
  have h2 := exponent_le v
  unfold log10fx
  omega

/-- The band is the largest whose test passes, and 0 where none does. -/
theorem bandFrom_spec (m err : Nat) :
    bandFrom m err ≤ m ∧ (bandFrom m err = 0 ∨ err < 215 * 10 ^ (7 - bandFrom m err)) ∧
    ∀ j, bandFrom m err < j → j ≤ m → 215 * 10 ^ (7 - j) ≤ err := by
  induction m with
  | zero => simp [bandFrom]; omega
  | succ k ih =>
    unfold bandFrom
    split
    · rename_i h
      exact ⟨le_refl _, .inr h, fun j h1 h2 => by omega⟩
    · rename_i h
      obtain ⟨a, b, c⟩ := ih
      refine ⟨by omega, b, fun j h1 h2 => ?_⟩
      rcases Nat.lt_or_ge k j with hj | hj
      · have : j = k + 1 := by omega
        subst this
        omega
      · exact c j h1 hj

end Sys2Proof.Machine
end

