-- ==== Sys2Proof/Laws/PerInstr.lean ====
section
/-! SUPPORT. What holds of each command as syntax: its command word matches its own row of the opcode map and no other
(30_encoding.md rule R80). -/

namespace Sys2Proof.Laws.OneRow

/-- The rows of the opcode map that the command's word matches are its own row alone. -/
def Statement (i : Instr) : Prop :=
  (opcodeRows.filter fun r => r.matches (encode i)).map OpcodeRow.mnemonic = [i.mnemonic]

/-- A row with every bit in its mask matches its one word. -/
theorem full_row (w k : Word) : w &&& 0xFFFFFFFF = k ↔ w.toNat = k.toNat := by
  rw [← BitVec.toNat_inj, BitVec.toNat_and, show (0xFFFFFFFF : Word).toNat = 2 ^ 32 - 1 by decide,
    Nat.and_two_pow_sub_one_eq_mod, Nat.mod_eq_of_lt w.isLt]

/-- The rows of CNRREL and SQI look at OP and the high half. -/
theorem cnr_row (w k : Word) : w &&& 0xFFFF000F = k ↔ w.toNat / 65536 * 65536 + w.toNat % 16 = k.toNat := by
  rw [← BitVec.toNat_inj, and_cnr_mask_toNat]

/-- The rows of TITLE and VALUE look at OP, bits 15:8 and bits 31:25. -/
theorem text_row (w k : Word) : w &&& 0xFE00FF0F = k ↔
    w.toNat / 33554432 * 33554432 + w.toNat / 256 % 256 * 256 + w.toNat % 16 = k.toNat := by
  rw [← BitVec.toNat_inj, and_text_mask_toNat]

theorem nop : Statement .nop := by unfold Statement; decide

theorem log10 : Statement .log10 := by unfold Statement; decide

theorem berscale : Statement .berscale := by unfold Statement; decide

theorem berscore : Statement .berscore := by unfold Statement; decide

theorem map_ite_cons {α β : Type} (p : Prop) [Decidable p] (f : α → β) (r : α) (l : List α) :
    (if p then r :: l else l).map f = (if p then [f r] else []) ++ l.map f := by
  split <;> rfl

/-- The rows a word of number `n` matches, by arithmetic. -/
theorem rows_toNat (w : Word) (n : Nat) (h : w.toNat = n) :
    (opcodeRows.filter fun r => r.matches w).map OpcodeRow.mnemonic =
      (if n = 0 then ["NOP"] else []) ++ (if n = 1 then ["LOG10"] else []) ++
      (if n = 2 then ["BERSCALE"] else []) ++ (if n = 3 then ["BERSCORE"] else []) ++
      (if n / 65536 * 65536 + n % 16 = 4 then ["CNRREL"] else []) ++
      (if n / 65536 * 65536 + n % 16 = 5 then ["SQI"] else []) ++
      (if n / 33554432 * 33554432 + n / 256 % 256 * 256 + n % 16 = 6 then ["TITLE"] else []) ++
      (if n / 33554432 * 33554432 + n / 256 % 256 * 256 + n % 16 = 7 then ["VALUE"] else []) := by
  subst h
  simp only [opcodeRows, OpcodeRow.matches, List.filter_cons, List.filter_nil, decide_eq_true_eq, full_row, cnr_row,
    text_row, map_ite_cons, List.map_nil, List.append_nil, List.append_assoc, BitVec.reduceToNat]

theorem cnrrel (std mod cr : BitVec 4) : Statement (.cnrrel std mod cr) := by
  have := std.isLt; have := mod.isLt; have := cr.isLt
  unfold Statement
  rw [rows_toNat _ _ (encode_cnrrel_toNat std mod cr), if_neg, if_neg, if_neg, if_neg, if_pos, if_neg, if_neg, if_neg]
  · rfl
  all_goals omega

theorem sqi (std mod cr : BitVec 4) : Statement (.sqi std mod cr) := by
  have := std.isLt; have := mod.isLt; have := cr.isLt
  unfold Statement
  rw [rows_toNat _ _ (encode_sqi_toNat std mod cr), if_neg, if_neg, if_neg, if_neg, if_neg, if_pos, if_neg, if_neg]
  · rfl
  all_goals omega

theorem title (std : BitVec 4) (id : BitVec 9) : Statement (.title std id) := by
  have := std.isLt; have := id.isLt
  unfold Statement
  rw [rows_toNat _ _ (encode_title_toNat std id), if_neg, if_neg, if_neg, if_neg, if_neg, if_neg, if_pos, if_neg]
  · rfl
  all_goals omega

theorem value (std : BitVec 4) (id : BitVec 9) : Statement (.value std id) := by
  have := std.isLt; have := id.isLt
  unfold Statement
  rw [rows_toNat _ _ (encode_value_toNat std id), if_neg, if_neg, if_neg, if_neg, if_neg, if_neg, if_neg, if_pos]
  · rfl
  all_goals omega

end Sys2Proof.Laws.OneRow
end

