-- ==== Sys2Proof/Laws/Quality.lean ====
section
/-! SUPPORT. The ranges of the BER score and of SQI's combination (R123, R125), for every well-formed table (R6), and
that a well-formed CNR table has every entry its indices name (R33). -/

namespace Sys2Proof.Machine

/-- A well-formed CNR table lists an entry for each modulation and code rate below its dimensions (R6, R33). -/
theorem cnrTable_entry_listed (c : CnrTable) (h : c.wf = true) (mod cr : Nat) (hm : mod < c.nmod) (hc : cr < c.ncr) :
    c.req[mod * c.ncr + cr]? = some ((c.req[mod * c.ncr + cr]?).getD 0) := by
  have hl : c.req.length = c.nmod * c.ncr := by
    simp only [CnrTable.wf, Bool.and_eq_true, decide_eq_true_eq] at h
    exact h.1
  have hlt : mod * c.ncr + cr < c.req.length := by
    rw [hl]
    calc mod * c.ncr + cr < mod * c.ncr + c.ncr := by omega
      _ = (mod + 1) * c.ncr := by rw [Nat.add_mul, Nat.one_mul]
      _ ≤ c.nmod * c.ncr := Nat.mul_le_mul_right _ hm
  rw [List.getElem?_eq_getElem hlt]
  rfl

/-- In the third arm of the score, the logarithm is 2000 to 7000 (R123). -/
theorem log10fx_third_arm (t : WfTables) (b : Nat) (h1 : 1000 ≤ b) (h2 : b < 10000000) :
    2000 ≤ log10fx t.val b ∧ log10fx t.val b ≤ 7000 := by
  obtain ⟨a, l, c, _⟩ := normalise_spec 8 b
  have hm : mantissa b ≤ 100 := mantissa_le b (by omega)
  have hl := lut_le t (mantissa b)
  have he5 : exponent b ≤ 5 := by
    by_contra h
    have := l 5 (by unfold exponent at h; omega)
    omega
  have hmd : mantissa b = b / 10 ^ exponent b := a
  unfold log10fx
  constructor
  · rcases Nat.lt_or_ge (exponent b) 2 with h | h
    · have : exponent b = 0 ∨ exponent b = 1 := by omega
      rcases this with h0 | h0
      · rw [h0] at hmd
        omega
      · rw [h0] at hmd
        have : mantissa b = 100 := by omega
        rw [this, lut_hundred]
        omega
    · omega
  · omega

/-- The BER score is 0 to 100 (R123, R131). -/
theorem berScore_range (t : WfTables) (b : Nat) : 0 ≤ berScore t.val b ∧ berScore t.val b ≤ 100 := by
  unfold berScore
  split
  · omega
  · split
    · omega
    · obtain ⟨h1, h2⟩ := log10fx_third_arm t b (by omega) (by omega)
      rw [Int.tdiv_eq_ediv_of_nonneg (by omega)]
      omega

/-- From -700 up, the combination of a score in 0 to 100 is 0 to the score (R125). -/
theorem combine_range (rel score : Int) (h : -700 ≤ rel) (h0 : 0 ≤ score) (h1 : score ≤ 100) :
    0 ≤ combine rel score ∧ combine rel score ≤ score := by
  unfold combine
  split
  · rename_i hr
    have hq : -100 ≤ (rel - 300).tdiv 10 ∧ (rel - 300).tdiv 10 ≤ 0 := by
      have hn : (rel - 300).tdiv 10 = -((300 - rel) / 10) := by
        rw [show rel - 300 = -(300 - rel) by ring, Int.neg_tdiv, Int.tdiv_eq_ediv_of_nonneg (by omega)]
      rw [hn]
      omega
    generalize (rel - 300).tdiv 10 = q at hq
    have hp : 0 ≤ (q + 100) * score := mul_nonneg (by omega) h0
    have hp2 : (q + 100) * score ≤ 100 * score := mul_le_mul_of_nonneg_right (by omega) h0
    rw [Int.tdiv_eq_ediv_of_nonneg hp]
    omega
  · exact ⟨h0, le_refl _⟩

end Sys2Proof.Machine
end

