-- ==== Sys2Proof/Laws/State.lean ====
section
/-! SUPPORT. What each operation on the state leaves in each field: one lemma per field per operation, so that no later
proof unfolds a record update. -/

namespace Sys2Proof.Machine

variable (s : State)

@[simp] theorem State.finish_eq : s.finish = s.endCommand errOk := rfl
@[simp] theorem State.raiseCmdError_eq (c : BitVec 4) : s.raiseCmdError c = s.endCommand c := rfl

@[simp] theorem State.putOutcome_tables (r d : Word) : (s.putOutcome r d).tables = s.tables := rfl
@[simp] theorem State.putOutcome_busy (r d : Word) : (s.putOutcome r d).busy = s.busy := rfl
@[simp] theorem State.putOutcome_done (r d : Word) : (s.putOutcome r d).done = s.done := rfl
@[simp] theorem State.putOutcome_ovr (r d : Word) : (s.putOutcome r d).ovr = s.ovr := rfl
@[simp] theorem State.putOutcome_err (r d : Word) : (s.putOutcome r d).err = s.err := rfl
@[simp] theorem State.putOutcome_cmd (r d : Word) : (s.putOutcome r d).cmd = s.cmd := rfl
@[simp] theorem State.putOutcome_args (r d : Word) : (s.putOutcome r d).args = s.args := rfl
@[simp] theorem State.putOutcome_result (r d : Word) : (s.putOutcome r d).result = r := rfl
@[simp] theorem State.putOutcome_desc (r d : Word) : (s.putOutcome r d).desc = d := rfl
@[simp] theorem State.putOutcome_text (r d : Word) : (s.putOutcome r d).text = s.text := rfl
@[simp] theorem State.putOutcome_latch (r d : Word) : (s.putOutcome r d).latch = s.latch := rfl
@[simp] theorem State.putOutcome_wait (r d : Word) : (s.putOutcome r d).wait = s.wait := rfl
@[simp] theorem State.putOutcome_accepted (r d : Word) : (s.putOutcome r d).accepted = s.accepted := rfl
@[simp] theorem State.putOutcome_latencies (r d : Word) : (s.putOutcome r d).latencies = s.latencies := rfl
@[simp] theorem State.putOutcome_draws (r d : Word) : (s.putOutcome r d).draws = s.draws := rfl
@[simp] theorem State.putOutcome_host (r d : Word) : (s.putOutcome r d).host = s.host := rfl
@[simp] theorem State.putOutcome_returned (r d : Word) : (s.putOutcome r d).returned = s.returned := rfl

@[simp] theorem State.putText_tables (b : Vector Byte 64) : (s.putText b).tables = s.tables := rfl
@[simp] theorem State.putText_busy (b : Vector Byte 64) : (s.putText b).busy = s.busy := rfl
@[simp] theorem State.putText_done (b : Vector Byte 64) : (s.putText b).done = s.done := rfl
@[simp] theorem State.putText_ovr (b : Vector Byte 64) : (s.putText b).ovr = s.ovr := rfl
@[simp] theorem State.putText_err (b : Vector Byte 64) : (s.putText b).err = s.err := rfl
@[simp] theorem State.putText_cmd (b : Vector Byte 64) : (s.putText b).cmd = s.cmd := rfl
@[simp] theorem State.putText_args (b : Vector Byte 64) : (s.putText b).args = s.args := rfl
@[simp] theorem State.putText_result (b : Vector Byte 64) : (s.putText b).result = s.result := rfl
@[simp] theorem State.putText_desc (b : Vector Byte 64) : (s.putText b).desc = s.desc := rfl
@[simp] theorem State.putText_text (b : Vector Byte 64) : (s.putText b).text = b := rfl
@[simp] theorem State.putText_latch (b : Vector Byte 64) : (s.putText b).latch = s.latch := rfl
@[simp] theorem State.putText_wait (b : Vector Byte 64) : (s.putText b).wait = s.wait := rfl
@[simp] theorem State.putText_accepted (b : Vector Byte 64) : (s.putText b).accepted = s.accepted := rfl
@[simp] theorem State.putText_latencies (b : Vector Byte 64) : (s.putText b).latencies = s.latencies := rfl
@[simp] theorem State.putText_draws (b : Vector Byte 64) : (s.putText b).draws = s.draws := rfl
@[simp] theorem State.putText_host (b : Vector Byte 64) : (s.putText b).host = s.host := rfl
@[simp] theorem State.putText_returned (b : Vector Byte 64) : (s.putText b).returned = s.returned := rfl

@[simp] theorem State.endCommand_tables (c : BitVec 4) : (s.endCommand c).tables = s.tables := rfl
@[simp] theorem State.endCommand_busy (c : BitVec 4) : (s.endCommand c).busy = false := rfl
@[simp] theorem State.endCommand_done (c : BitVec 4) : (s.endCommand c).done = true := rfl
@[simp] theorem State.endCommand_ovr (c : BitVec 4) : (s.endCommand c).ovr = s.ovr := rfl
@[simp] theorem State.endCommand_err (c : BitVec 4) : (s.endCommand c).err = c := rfl
@[simp] theorem State.endCommand_cmd (c : BitVec 4) : (s.endCommand c).cmd = s.cmd := rfl
@[simp] theorem State.endCommand_args (c : BitVec 4) : (s.endCommand c).args = s.args := rfl
@[simp] theorem State.endCommand_result (c : BitVec 4) : (s.endCommand c).result = s.result := rfl
@[simp] theorem State.endCommand_desc (c : BitVec 4) : (s.endCommand c).desc = s.desc := rfl
@[simp] theorem State.endCommand_text (c : BitVec 4) : (s.endCommand c).text = s.text := rfl
@[simp] theorem State.endCommand_latch (c : BitVec 4) : (s.endCommand c).latch = s.latch := rfl
@[simp] theorem State.endCommand_wait (c : BitVec 4) : (s.endCommand c).wait = s.wait := rfl
@[simp] theorem State.endCommand_accepted (c : BitVec 4) : (s.endCommand c).accepted = s.accepted := rfl
@[simp] theorem State.endCommand_latencies (c : BitVec 4) : (s.endCommand c).latencies = s.latencies := rfl
@[simp] theorem State.endCommand_draws (c : BitVec 4) : (s.endCommand c).draws = s.draws := rfl
@[simp] theorem State.endCommand_host (c : BitVec 4) : (s.endCommand c).host = s.host := rfl
@[simp] theorem State.endCommand_returned (c : BitVec 4) : (s.endCommand c).returned = s.returned := rfl

@[simp] theorem State.accept_tables (w : Word) : (s.accept w).tables = s.tables := rfl
@[simp] theorem State.accept_busy (w : Word) : (s.accept w).busy = true := rfl
@[simp] theorem State.accept_done (w : Word) : (s.accept w).done = false := rfl
@[simp] theorem State.accept_ovr (w : Word) : (s.accept w).ovr = s.ovr := rfl
@[simp] theorem State.accept_err (w : Word) : (s.accept w).err = s.err := rfl
@[simp] theorem State.accept_cmd (w : Word) : (s.accept w).cmd = w := rfl
@[simp] theorem State.accept_args (w : Word) : (s.accept w).args = s.args := rfl
@[simp] theorem State.accept_result (w : Word) : (s.accept w).result = s.result := rfl
@[simp] theorem State.accept_desc (w : Word) : (s.accept w).desc = s.desc := rfl
@[simp] theorem State.accept_text (w : Word) : (s.accept w).text = s.text := rfl
@[simp] theorem State.accept_latch (w : Word) : (s.accept w).latch = { cmd := w, arg := s.args } := rfl
@[simp] theorem State.accept_wait (w : Word) : (s.accept w).wait = s.nextLatency := rfl
@[simp] theorem State.accept_accepted (w : Word) : (s.accept w).accepted = s.accepted + 1 := rfl
@[simp] theorem State.accept_latencies (w : Word) : (s.accept w).latencies = s.latencies.tail := rfl
@[simp] theorem State.accept_draws (w : Word) : (s.accept w).draws = s.draws := rfl
@[simp] theorem State.accept_host (w : Word) : (s.accept w).host = s.host := rfl
@[simp] theorem State.accept_returned (w : Word) : (s.accept w).returned = s.returned := rfl

@[simp] theorem State.rejectIllegal_tables (w : Word) : (s.rejectIllegal w).tables = s.tables := rfl
@[simp] theorem State.rejectIllegal_busy (w : Word) : (s.rejectIllegal w).busy = s.busy := rfl
@[simp] theorem State.rejectIllegal_done (w : Word) : (s.rejectIllegal w).done = true := rfl
@[simp] theorem State.rejectIllegal_ovr (w : Word) : (s.rejectIllegal w).ovr = s.ovr := rfl
@[simp] theorem State.rejectIllegal_err (w : Word) : (s.rejectIllegal w).err = errIllegal := rfl
@[simp] theorem State.rejectIllegal_cmd (w : Word) : (s.rejectIllegal w).cmd = w := rfl
@[simp] theorem State.rejectIllegal_args (w : Word) : (s.rejectIllegal w).args = s.args := rfl
@[simp] theorem State.rejectIllegal_result (w : Word) : (s.rejectIllegal w).result = s.result := rfl
@[simp] theorem State.rejectIllegal_desc (w : Word) : (s.rejectIllegal w).desc = s.desc := rfl
@[simp] theorem State.rejectIllegal_text (w : Word) : (s.rejectIllegal w).text = s.text := rfl
@[simp] theorem State.rejectIllegal_latch (w : Word) : (s.rejectIllegal w).latch = s.latch := rfl
@[simp] theorem State.rejectIllegal_wait (w : Word) : (s.rejectIllegal w).wait = s.wait := rfl
@[simp] theorem State.rejectIllegal_accepted (w : Word) : (s.rejectIllegal w).accepted = s.accepted := rfl
@[simp] theorem State.rejectIllegal_latencies (w : Word) : (s.rejectIllegal w).latencies = s.latencies := rfl
@[simp] theorem State.rejectIllegal_draws (w : Word) : (s.rejectIllegal w).draws = s.draws := rfl
@[simp] theorem State.rejectIllegal_host (w : Word) : (s.rejectIllegal w).host = s.host := rfl
@[simp] theorem State.rejectIllegal_returned (w : Word) : (s.rejectIllegal w).returned = s.returned := rfl

@[simp] theorem State.overrun_tables : s.overrun.tables = s.tables := rfl
@[simp] theorem State.overrun_busy : s.overrun.busy = s.busy := rfl
@[simp] theorem State.overrun_done : s.overrun.done = s.done := rfl
@[simp] theorem State.overrun_ovr : s.overrun.ovr = true := rfl
@[simp] theorem State.overrun_err : s.overrun.err = s.err := rfl
@[simp] theorem State.overrun_cmd : s.overrun.cmd = s.cmd := rfl
@[simp] theorem State.overrun_args : s.overrun.args = s.args := rfl
@[simp] theorem State.overrun_result : s.overrun.result = s.result := rfl
@[simp] theorem State.overrun_desc : s.overrun.desc = s.desc := rfl
@[simp] theorem State.overrun_text : s.overrun.text = s.text := rfl
@[simp] theorem State.overrun_latch : s.overrun.latch = s.latch := rfl
@[simp] theorem State.overrun_wait : s.overrun.wait = s.wait := rfl
@[simp] theorem State.overrun_accepted : s.overrun.accepted = s.accepted := rfl
@[simp] theorem State.overrun_latencies : s.overrun.latencies = s.latencies := rfl
@[simp] theorem State.overrun_draws : s.overrun.draws = s.draws := rfl
@[simp] theorem State.overrun_host : s.overrun.host = s.host := rfl
@[simp] theorem State.overrun_returned : s.overrun.returned = s.returned := rfl

@[simp] theorem State.acknowledge_tables (v : Word) : (s.acknowledge v).tables = s.tables := rfl
@[simp] theorem State.acknowledge_busy (v : Word) : (s.acknowledge v).busy = s.busy := rfl
@[simp] theorem State.acknowledge_done (v : Word) : (s.acknowledge v).done = (s.done && !v.getLsbD 1) := rfl
@[simp] theorem State.acknowledge_ovr (v : Word) : (s.acknowledge v).ovr = (s.ovr && !v.getLsbD 2) := rfl
@[simp] theorem State.acknowledge_err (v : Word) : (s.acknowledge v).err = s.err := rfl
@[simp] theorem State.acknowledge_cmd (v : Word) : (s.acknowledge v).cmd = s.cmd := rfl
@[simp] theorem State.acknowledge_args (v : Word) : (s.acknowledge v).args = s.args := rfl
@[simp] theorem State.acknowledge_result (v : Word) : (s.acknowledge v).result = s.result := rfl
@[simp] theorem State.acknowledge_desc (v : Word) : (s.acknowledge v).desc = s.desc := rfl
@[simp] theorem State.acknowledge_text (v : Word) : (s.acknowledge v).text = s.text := rfl
@[simp] theorem State.acknowledge_latch (v : Word) : (s.acknowledge v).latch = s.latch := rfl
@[simp] theorem State.acknowledge_wait (v : Word) : (s.acknowledge v).wait = s.wait := rfl
@[simp] theorem State.acknowledge_accepted (v : Word) : (s.acknowledge v).accepted = s.accepted := rfl
@[simp] theorem State.acknowledge_latencies (v : Word) : (s.acknowledge v).latencies = s.latencies := rfl
@[simp] theorem State.acknowledge_draws (v : Word) : (s.acknowledge v).draws = s.draws := rfl
@[simp] theorem State.acknowledge_host (v : Word) : (s.acknowledge v).host = s.host := rfl
@[simp] theorem State.acknowledge_returned (v : Word) : (s.acknowledge v).returned = s.returned := rfl

@[simp] theorem State.resetBlock_tables : s.resetBlock.tables = s.tables := rfl
@[simp] theorem State.resetBlock_busy : s.resetBlock.busy = false := rfl
@[simp] theorem State.resetBlock_done : s.resetBlock.done = false := rfl
@[simp] theorem State.resetBlock_ovr : s.resetBlock.ovr = false := rfl
@[simp] theorem State.resetBlock_err : s.resetBlock.err = 0 := rfl
@[simp] theorem State.resetBlock_cmd : s.resetBlock.cmd = 0 := rfl
@[simp] theorem State.resetBlock_args : s.resetBlock.args = Operands.zero := rfl
@[simp] theorem State.resetBlock_result : s.resetBlock.result = 0 := rfl
@[simp] theorem State.resetBlock_desc : s.resetBlock.desc = 0 := rfl
@[simp] theorem State.resetBlock_text : s.resetBlock.text = Vector.replicate 64 0 := rfl
@[simp] theorem State.resetBlock_latch : s.resetBlock.latch = { cmd := 0, arg := Operands.zero } := rfl
@[simp] theorem State.resetBlock_wait : s.resetBlock.wait = 0 := rfl
@[simp] theorem State.resetBlock_accepted : s.resetBlock.accepted = s.accepted := rfl
@[simp] theorem State.resetBlock_latencies : s.resetBlock.latencies = s.latencies := rfl
@[simp] theorem State.resetBlock_draws : s.resetBlock.draws = s.draws := rfl
@[simp] theorem State.resetBlock_host : s.resetBlock.host = s.host := rfl
@[simp] theorem State.resetBlock_returned : s.resetBlock.returned = s.returned := rfl

@[simp] theorem State.setArg0_tables (v : Word) : (s.setArg0 v).tables = s.tables := rfl
@[simp] theorem State.setArg0_busy (v : Word) : (s.setArg0 v).busy = s.busy := rfl
@[simp] theorem State.setArg0_done (v : Word) : (s.setArg0 v).done = s.done := rfl
@[simp] theorem State.setArg0_ovr (v : Word) : (s.setArg0 v).ovr = s.ovr := rfl
@[simp] theorem State.setArg0_err (v : Word) : (s.setArg0 v).err = s.err := rfl
@[simp] theorem State.setArg0_cmd (v : Word) : (s.setArg0 v).cmd = s.cmd := rfl
@[simp] theorem State.setArg0_args (v : Word) : (s.setArg0 v).args = { s.args with arg0 := v } := rfl
@[simp] theorem State.setArg0_result (v : Word) : (s.setArg0 v).result = s.result := rfl
@[simp] theorem State.setArg0_desc (v : Word) : (s.setArg0 v).desc = s.desc := rfl
@[simp] theorem State.setArg0_text (v : Word) : (s.setArg0 v).text = s.text := rfl
@[simp] theorem State.setArg0_latch (v : Word) : (s.setArg0 v).latch = s.latch := rfl
@[simp] theorem State.setArg0_wait (v : Word) : (s.setArg0 v).wait = s.wait := rfl
@[simp] theorem State.setArg0_accepted (v : Word) : (s.setArg0 v).accepted = s.accepted := rfl
@[simp] theorem State.setArg0_latencies (v : Word) : (s.setArg0 v).latencies = s.latencies := rfl
@[simp] theorem State.setArg0_draws (v : Word) : (s.setArg0 v).draws = s.draws := rfl
@[simp] theorem State.setArg0_host (v : Word) : (s.setArg0 v).host = s.host := rfl
@[simp] theorem State.setArg0_returned (v : Word) : (s.setArg0 v).returned = s.returned := rfl

@[simp] theorem State.setArg1_tables (v : Word) : (s.setArg1 v).tables = s.tables := rfl
@[simp] theorem State.setArg1_busy (v : Word) : (s.setArg1 v).busy = s.busy := rfl
@[simp] theorem State.setArg1_done (v : Word) : (s.setArg1 v).done = s.done := rfl
@[simp] theorem State.setArg1_ovr (v : Word) : (s.setArg1 v).ovr = s.ovr := rfl
@[simp] theorem State.setArg1_err (v : Word) : (s.setArg1 v).err = s.err := rfl
@[simp] theorem State.setArg1_cmd (v : Word) : (s.setArg1 v).cmd = s.cmd := rfl
@[simp] theorem State.setArg1_args (v : Word) : (s.setArg1 v).args = { s.args with arg1 := v } := rfl
@[simp] theorem State.setArg1_result (v : Word) : (s.setArg1 v).result = s.result := rfl
@[simp] theorem State.setArg1_desc (v : Word) : (s.setArg1 v).desc = s.desc := rfl
@[simp] theorem State.setArg1_text (v : Word) : (s.setArg1 v).text = s.text := rfl
@[simp] theorem State.setArg1_latch (v : Word) : (s.setArg1 v).latch = s.latch := rfl
@[simp] theorem State.setArg1_wait (v : Word) : (s.setArg1 v).wait = s.wait := rfl
@[simp] theorem State.setArg1_accepted (v : Word) : (s.setArg1 v).accepted = s.accepted := rfl
@[simp] theorem State.setArg1_latencies (v : Word) : (s.setArg1 v).latencies = s.latencies := rfl
@[simp] theorem State.setArg1_draws (v : Word) : (s.setArg1 v).draws = s.draws := rfl
@[simp] theorem State.setArg1_host (v : Word) : (s.setArg1 v).host = s.host := rfl
@[simp] theorem State.setArg1_returned (v : Word) : (s.setArg1 v).returned = s.returned := rfl

@[simp] theorem State.setArg2_tables (v : Word) : (s.setArg2 v).tables = s.tables := rfl
@[simp] theorem State.setArg2_busy (v : Word) : (s.setArg2 v).busy = s.busy := rfl
@[simp] theorem State.setArg2_done (v : Word) : (s.setArg2 v).done = s.done := rfl
@[simp] theorem State.setArg2_ovr (v : Word) : (s.setArg2 v).ovr = s.ovr := rfl
@[simp] theorem State.setArg2_err (v : Word) : (s.setArg2 v).err = s.err := rfl
@[simp] theorem State.setArg2_cmd (v : Word) : (s.setArg2 v).cmd = s.cmd := rfl
@[simp] theorem State.setArg2_args (v : Word) : (s.setArg2 v).args = { s.args with arg2 := v } := rfl
@[simp] theorem State.setArg2_result (v : Word) : (s.setArg2 v).result = s.result := rfl
@[simp] theorem State.setArg2_desc (v : Word) : (s.setArg2 v).desc = s.desc := rfl
@[simp] theorem State.setArg2_text (v : Word) : (s.setArg2 v).text = s.text := rfl
@[simp] theorem State.setArg2_latch (v : Word) : (s.setArg2 v).latch = s.latch := rfl
@[simp] theorem State.setArg2_wait (v : Word) : (s.setArg2 v).wait = s.wait := rfl
@[simp] theorem State.setArg2_accepted (v : Word) : (s.setArg2 v).accepted = s.accepted := rfl
@[simp] theorem State.setArg2_latencies (v : Word) : (s.setArg2 v).latencies = s.latencies := rfl
@[simp] theorem State.setArg2_draws (v : Word) : (s.setArg2 v).draws = s.draws := rfl
@[simp] theorem State.setArg2_host (v : Word) : (s.setArg2 v).host = s.host := rfl
@[simp] theorem State.setArg2_returned (v : Word) : (s.setArg2 v).returned = s.returned := rfl

@[simp] theorem State.setArg3_tables (v : Word) : (s.setArg3 v).tables = s.tables := rfl
@[simp] theorem State.setArg3_busy (v : Word) : (s.setArg3 v).busy = s.busy := rfl
@[simp] theorem State.setArg3_done (v : Word) : (s.setArg3 v).done = s.done := rfl
@[simp] theorem State.setArg3_ovr (v : Word) : (s.setArg3 v).ovr = s.ovr := rfl
@[simp] theorem State.setArg3_err (v : Word) : (s.setArg3 v).err = s.err := rfl
@[simp] theorem State.setArg3_cmd (v : Word) : (s.setArg3 v).cmd = s.cmd := rfl
@[simp] theorem State.setArg3_args (v : Word) : (s.setArg3 v).args = { s.args with arg3 := v } := rfl
@[simp] theorem State.setArg3_result (v : Word) : (s.setArg3 v).result = s.result := rfl
@[simp] theorem State.setArg3_desc (v : Word) : (s.setArg3 v).desc = s.desc := rfl
@[simp] theorem State.setArg3_text (v : Word) : (s.setArg3 v).text = s.text := rfl
@[simp] theorem State.setArg3_latch (v : Word) : (s.setArg3 v).latch = s.latch := rfl
@[simp] theorem State.setArg3_wait (v : Word) : (s.setArg3 v).wait = s.wait := rfl
@[simp] theorem State.setArg3_accepted (v : Word) : (s.setArg3 v).accepted = s.accepted := rfl
@[simp] theorem State.setArg3_latencies (v : Word) : (s.setArg3 v).latencies = s.latencies := rfl
@[simp] theorem State.setArg3_draws (v : Word) : (s.setArg3 v).draws = s.draws := rfl
@[simp] theorem State.setArg3_host (v : Word) : (s.setArg3 v).host = s.host := rfl
@[simp] theorem State.setArg3_returned (v : Word) : (s.setArg3 v).returned = s.returned := rfl

@[simp] theorem State.tick_tables : s.tick.tables = s.tables := rfl
@[simp] theorem State.tick_busy : s.tick.busy = s.busy := rfl
@[simp] theorem State.tick_done : s.tick.done = s.done := rfl
@[simp] theorem State.tick_ovr : s.tick.ovr = s.ovr := rfl
@[simp] theorem State.tick_err : s.tick.err = s.err := rfl
@[simp] theorem State.tick_cmd : s.tick.cmd = s.cmd := rfl
@[simp] theorem State.tick_args : s.tick.args = s.args := rfl
@[simp] theorem State.tick_result : s.tick.result = s.result := rfl
@[simp] theorem State.tick_desc : s.tick.desc = s.desc := rfl
@[simp] theorem State.tick_text : s.tick.text = s.text := rfl
@[simp] theorem State.tick_latch : s.tick.latch = s.latch := rfl
@[simp] theorem State.tick_wait : s.tick.wait = s.wait - 1 := rfl
@[simp] theorem State.tick_accepted : s.tick.accepted = s.accepted := rfl
@[simp] theorem State.tick_latencies : s.tick.latencies = s.latencies := rfl
@[simp] theorem State.tick_draws : s.tick.draws = s.draws := rfl
@[simp] theorem State.tick_host : s.tick.host = s.host := rfl
@[simp] theorem State.tick_returned : s.tick.returned = s.returned := rfl

@[simp] theorem State.setHost_tables (ops : List HostOp) : (s.setHost ops).tables = s.tables := rfl
@[simp] theorem State.setHost_busy (ops : List HostOp) : (s.setHost ops).busy = s.busy := rfl
@[simp] theorem State.setHost_done (ops : List HostOp) : (s.setHost ops).done = s.done := rfl
@[simp] theorem State.setHost_ovr (ops : List HostOp) : (s.setHost ops).ovr = s.ovr := rfl
@[simp] theorem State.setHost_err (ops : List HostOp) : (s.setHost ops).err = s.err := rfl
@[simp] theorem State.setHost_cmd (ops : List HostOp) : (s.setHost ops).cmd = s.cmd := rfl
@[simp] theorem State.setHost_args (ops : List HostOp) : (s.setHost ops).args = s.args := rfl
@[simp] theorem State.setHost_result (ops : List HostOp) : (s.setHost ops).result = s.result := rfl
@[simp] theorem State.setHost_desc (ops : List HostOp) : (s.setHost ops).desc = s.desc := rfl
@[simp] theorem State.setHost_text (ops : List HostOp) : (s.setHost ops).text = s.text := rfl
@[simp] theorem State.setHost_latch (ops : List HostOp) : (s.setHost ops).latch = s.latch := rfl
@[simp] theorem State.setHost_wait (ops : List HostOp) : (s.setHost ops).wait = s.wait := rfl
@[simp] theorem State.setHost_accepted (ops : List HostOp) : (s.setHost ops).accepted = s.accepted := rfl
@[simp] theorem State.setHost_latencies (ops : List HostOp) : (s.setHost ops).latencies = s.latencies := rfl
@[simp] theorem State.setHost_draws (ops : List HostOp) : (s.setHost ops).draws = s.draws := rfl
@[simp] theorem State.setHost_host (ops : List HostOp) : (s.setHost ops).host = ops := rfl
@[simp] theorem State.setHost_returned (ops : List HostOp) : (s.setHost ops).returned = s.returned := rfl

@[simp] theorem State.giveWord_tables (v : Word) : (s.giveWord v).tables = s.tables := rfl
@[simp] theorem State.giveWord_busy (v : Word) : (s.giveWord v).busy = s.busy := rfl
@[simp] theorem State.giveWord_done (v : Word) : (s.giveWord v).done = s.done := rfl
@[simp] theorem State.giveWord_ovr (v : Word) : (s.giveWord v).ovr = s.ovr := rfl
@[simp] theorem State.giveWord_err (v : Word) : (s.giveWord v).err = s.err := rfl
@[simp] theorem State.giveWord_cmd (v : Word) : (s.giveWord v).cmd = s.cmd := rfl
@[simp] theorem State.giveWord_args (v : Word) : (s.giveWord v).args = s.args := rfl
@[simp] theorem State.giveWord_result (v : Word) : (s.giveWord v).result = s.result := rfl
@[simp] theorem State.giveWord_desc (v : Word) : (s.giveWord v).desc = s.desc := rfl
@[simp] theorem State.giveWord_text (v : Word) : (s.giveWord v).text = s.text := rfl
@[simp] theorem State.giveWord_latch (v : Word) : (s.giveWord v).latch = s.latch := rfl
@[simp] theorem State.giveWord_wait (v : Word) : (s.giveWord v).wait = s.wait := rfl
@[simp] theorem State.giveWord_accepted (v : Word) : (s.giveWord v).accepted = s.accepted := rfl
@[simp] theorem State.giveWord_latencies (v : Word) : (s.giveWord v).latencies = s.latencies := rfl
@[simp] theorem State.giveWord_draws (v : Word) : (s.giveWord v).draws = s.draws := rfl
@[simp] theorem State.giveWord_host (v : Word) : (s.giveWord v).host = s.host := rfl
@[simp] theorem State.giveWord_returned (v : Word) : (s.giveWord v).returned = v :: s.returned := rfl

@[simp] theorem State.countDraw_tables : s.countDraw.tables = s.tables := rfl
@[simp] theorem State.countDraw_busy : s.countDraw.busy = s.busy := rfl
@[simp] theorem State.countDraw_done : s.countDraw.done = s.done := rfl
@[simp] theorem State.countDraw_ovr : s.countDraw.ovr = s.ovr := rfl
@[simp] theorem State.countDraw_err : s.countDraw.err = s.err := rfl
@[simp] theorem State.countDraw_cmd : s.countDraw.cmd = s.cmd := rfl
@[simp] theorem State.countDraw_args : s.countDraw.args = s.args := rfl
@[simp] theorem State.countDraw_result : s.countDraw.result = s.result := rfl
@[simp] theorem State.countDraw_desc : s.countDraw.desc = s.desc := rfl
@[simp] theorem State.countDraw_text : s.countDraw.text = s.text := rfl
@[simp] theorem State.countDraw_latch : s.countDraw.latch = s.latch := rfl
@[simp] theorem State.countDraw_wait : s.countDraw.wait = s.wait := rfl
@[simp] theorem State.countDraw_accepted : s.countDraw.accepted = s.accepted := rfl
@[simp] theorem State.countDraw_latencies : s.countDraw.latencies = s.latencies := rfl
@[simp] theorem State.countDraw_draws : s.countDraw.draws = s.draws + 1 := rfl
@[simp] theorem State.countDraw_host : s.countDraw.host = s.host := rfl
@[simp] theorem State.countDraw_returned : s.countDraw.returned = s.returned := rfl

@[simp] theorem State.loadCommand_tables (w : Word) : (s.loadCommand w).tables = s.tables := rfl
@[simp] theorem State.loadCommand_busy (w : Word) : (s.loadCommand w).busy = true := rfl
@[simp] theorem State.loadCommand_done (w : Word) : (s.loadCommand w).done = false := rfl
@[simp] theorem State.loadCommand_ovr (w : Word) : (s.loadCommand w).ovr = s.ovr := rfl
@[simp] theorem State.loadCommand_err (w : Word) : (s.loadCommand w).err = s.err := rfl
@[simp] theorem State.loadCommand_cmd (w : Word) : (s.loadCommand w).cmd = w := rfl
@[simp] theorem State.loadCommand_args (w : Word) : (s.loadCommand w).args = s.args := rfl
@[simp] theorem State.loadCommand_result (w : Word) : (s.loadCommand w).result = s.result := rfl
@[simp] theorem State.loadCommand_desc (w : Word) : (s.loadCommand w).desc = s.desc := rfl
@[simp] theorem State.loadCommand_text (w : Word) : (s.loadCommand w).text = s.text := rfl
@[simp] theorem State.loadCommand_latch (w : Word) : (s.loadCommand w).latch = { cmd := w, arg := s.args } := rfl
@[simp] theorem State.loadCommand_wait (w : Word) : (s.loadCommand w).wait = 0 := rfl
@[simp] theorem State.loadCommand_accepted (w : Word) : (s.loadCommand w).accepted = s.accepted := rfl
@[simp] theorem State.loadCommand_latencies (w : Word) : (s.loadCommand w).latencies = s.latencies := rfl
@[simp] theorem State.loadCommand_draws (w : Word) : (s.loadCommand w).draws = s.draws := rfl
@[simp] theorem State.loadCommand_host (w : Word) : (s.loadCommand w).host = s.host := rfl
@[simp] theorem State.loadCommand_returned (w : Word) : (s.loadCommand w).returned = s.returned := rfl

end Sys2Proof.Machine
end

