-- ==== Sys2Proof/Laws/Telemetry.lean ====
section
/-! SUPPORT. The renderings of a number (R153, R154) and the TEXT buffer (R156). -/

namespace Sys2Proof.Machine

/-- Every digit is below the base. -/
theorem digits_lt (base : Nat) (hb : 0 < base) (fuel v : Nat) : ∀ d ∈ digits base fuel v, d < base := by
  induction fuel generalizing v with
  | zero => simp [digits]
  | succ f ih =>
    unfold digits
    split
    · rename_i h
      simpa using h
    · intro d hd
      rcases List.mem_append.1 hd with h | h
      · exact ih _ d h
      · simp at h
        subst h
        exact Nat.mod_lt _ hb

/-- The digits read back as the value, where the fuel suffices. -/
theorem digits_value (base : Nat) (hb : 2 ≤ base) (fuel v : Nat) (h : v < base ^ fuel) :
    (digits base fuel v).foldl (fun a d => base * a + d) 0 = v := by
  induction fuel generalizing v with
  | zero => simp at h; simp [digits, h]
  | succ f ih =>
    unfold digits
    split
    · simp
    · rw [List.foldl_append, ih (v / base) (by rw [Nat.div_lt_iff_lt_mul (by omega)]; rwa [Nat.pow_succ] at h)]
      simp [Nat.div_add_mod]

/-- At least one digit and at most as many as the fuel. -/
theorem digits_length (base fuel v : Nat) (hf : 0 < fuel) :
    1 ≤ (digits base fuel v).length ∧ (digits base fuel v).length ≤ fuel := by
  induction fuel generalizing v with
  | zero => omega
  | succ f ih =>
    unfold digits
    split
    · simp
    · rcases Nat.eq_zero_or_pos f with h | h
      · subst h
        simp [digits]
      · have := ih (v / base) h
        simp
        omega

/-- A leading zero only for zero. -/
theorem digits_head (base : Nat) (hb : 2 ≤ base) (fuel v : Nat) (h : v < base ^ fuel)
    (h0 : (digits base fuel v).head? = some 0) : v = 0 := by
  induction fuel generalizing v with
  | zero => simpa using h
  | succ f ih =>
    unfold digits at h0
    split at h0
    · simpa using h0
    · rename_i hv
      have hd : v / base < base ^ f := by
        rw [Nat.div_lt_iff_lt_mul (by omega)]
        rwa [Nat.pow_succ] at h
      have hq : 1 ≤ v / base := by
        rw [Nat.le_div_iff_mul_le (by omega)]
        omega
      rcases Nat.eq_zero_or_pos f with hf | hf
      · subst hf
        simp at hd
        omega
      · have hl := (digits_length base f (v / base) hf).1
        rcases hdig : digits base f (v / base) with _ | ⟨a, l⟩
        · rw [hdig] at hl
          simp at hl
        · rw [hdig] at h0
          have := ih (v / base) hd (by rw [hdig]; simpa using h0)
          omega

/-- The byte of a digit below 16 (R153, R154). -/
theorem digitByte_toNat (d : Nat) (h : d < 16) :
    (digitByte d).toNat = if d < 10 then 0x30 + d else 0x41 + (d - 10) := by
  interval_cases d <;> decide

theorem decText_length (v : Word) : 1 ≤ (decText v).length ∧ (decText v).length ≤ 10 := by
  have := digits_length 10 10 v.toNat (by omega)
  simpa [decText] using this

theorem hexText_length (v : Word) : 3 ≤ (hexText v).length ∧ (hexText v).length ≤ 10 := by
  have := digits_length 16 8 v.toNat (by omega)
  simp [hexText]
  omega

theorem emitLen_le (t : Text) : emitLen t ≤ 63 := Nat.min_le_right _ _

/-- Byte `j` of the buffer: the text's byte below the cut, else zero (R156). -/
theorem emit_get (t : Text) (j : Nat) (hj : j < 64) :
    (emit t)[j] = if h : j < t.length ∧ j < 63 then t[j]'h.1 else 0 := by
  simp only [emit, Vector.getElem_mk, List.getElem_toArray, List.getElem_append, List.length_take]
  by_cases h : j < t.length ∧ j < 63
  · rw [dif_pos (by omega), dif_pos h]
    simp
  · rw [dif_neg (by omega), dif_neg h]
    simp

/-- From DESC.LEN on, the buffer is zero (R156). -/
theorem emit_zero (t : Text) (j : Nat) (hj : j < 64) (h : emitLen t ≤ j) : (emit t)[j] = 0 := by
  rw [emit_get, dif_neg]
  unfold emitLen at h
  omega

end Sys2Proof.Machine
end

