-- ==== Sys2Proof/Laws/Step.lean ====
section
/-! SUPPORT. Everything one step can do: which of the two kinds of step it is, what a completion step leaves, what an
operation of the host leaves. -/

namespace Sys2Proof.Machine

theorem step_due (s : State) (hb : s.busy = true) (hw : s.wait = 0) : step s = completionStep s := by
  simp [step, systemStep, State.completionDue, hb, hw]

theorem step_notDue (s : State) (h : s.busy = false ∨ 0 < s.wait) : step s = hostStep s := by
  rcases h with h | h
  · simp [step, systemStep, State.completionDue, h]
  · have : s.wait ≠ 0 := by omega
    simp [step, systemStep, State.completionDue, this]

/-- Either the completion step is due or it is not. -/
theorem due_or_notDue (s : State) : (s.busy = true ∧ s.wait = 0) ∨ (s.busy = false ∨ 0 < s.wait) := by
  by_cases hb : s.busy = true
  · by_cases hw : s.wait = 0
    · exact .inl ⟨hb, hw⟩
    · exact .inr (.inr (by omega))
  · exact .inr (.inl (by simpa using hb))

theorem completionStep_ok (s : State) (i : Instr) (h : decode s.latch.cmd = .ok i) : completionStep s = exec i s := by
  simp [completionStep, h]

/-! ### What a descriptor and a text can be -/

theorem descLog10_lt (e n : Nat) : (descLog10 e n).toNat < 2 ^ 24 := by
  rw [descLog10_toNat]; omega

theorem descBerscale_lt (g : Bool) (k : Nat) : (descBerscale g k).toNat < 2 ^ 24 := by
  rw [descBerscale_toNat]; cases g <;> simp <;> omega

theorem descQuality_lt (b : BitVec 8) (h l z m f n : Bool) : (descQuality b h l z m f n).toNat < 2 ^ 24 := by
  have := b.isLt
  rw [descQuality_toNat]
  cases h <;> cases l <;> cases z <;> cases m <;> cases f <;> cases n <;> simp <;> omega

/-- Everything a completion step can leave: RESULT, DESC, ERR, BUSY 0, DONE 1, and TEXT either untouched or one `emit`
wrote; DESC stays below bit 24 and ERR is 0 or 2. -/
theorem exec_spec (i : Instr) (s : State) :
    ∃ (text : Vector Byte 64) (result desc : Word) (err : BitVec 4),
      exec i s = .next { s with
        text := text, result := result, desc := desc, err := err, busy := false, done := true } ∧
      (text = s.text ∨ ∃ t, text = emit t) ∧ desc.toNat < 2 ^ 24 ∧ err.toNat ≤ 2 := by
  cases i with
  | nop => exact ⟨s.text, 0, 0, 0, rfl, .inl rfl, by decide, by decide⟩
  | log10 =>
    by_cases h : s.operand0.toNat = 0
    · exact ⟨s.text, 0, 0, 2, by simp only [exec, execLog10, h, if_true]; rfl, .inl rfl, by decide, by decide⟩
    · exact ⟨s.text, _, _, 0, by simp only [exec, execLog10, h, if_false]; rfl, .inl rfl, descLog10_lt _ _, by decide⟩
  | berscale =>
    by_cases h : s.operand1.toNat = 0 ∨ s.operand1.toNat ≤ s.operand0.toNat
    · exact ⟨s.text, _, _, 0, by simp only [exec, execBerscale, h, if_true]; rfl, .inl rfl,
        descBerscale_lt _ _, by decide⟩
    · exact ⟨s.text, _, _, 0, by simp only [exec, execBerscale, h, if_false]; rfl, .inl rfl,
        descBerscale_lt _ _, by decide⟩
  | berscore => exact ⟨s.text, _, _, 0, rfl, .inl rfl, descQuality_lt _ _ _ _ _ _ _, by decide⟩
  | cnrrel a b c =>
    by_cases h : hasRef s.tables.val a b c = true
    · exact ⟨s.text, _, _, 0, by simp only [exec, execCnrrel, h, if_true]; rfl, .inl rfl,
        descQuality_lt _ _ _ _ _ _ _, by decide⟩
    · exact ⟨s.text, 0, descNoRef, 0, by simp only [exec, execCnrrel, h]; rfl, .inl rfl, by decide, by decide⟩
  | sqi a b c =>
    by_cases h : hasRef s.tables.val a b c = true
    · by_cases h2 : cnrRel s.tables.val a b c s.operand0 s.operand1 < -700
      · exact ⟨s.text, _, _, 0, by simp only [exec, execSqi, h, h2, if_true]; rfl, .inl rfl,
          descQuality_lt _ _ _ _ _ _ _, by decide⟩
      · exact ⟨s.text, _, _, 0, by simp only [exec, execSqi, h, h2, if_true, if_false]; rfl, .inl rfl,
          descQuality_lt _ _ _ _ _ _ _, by decide⟩
    · exact ⟨s.text, 0, descNoRef, 0, by simp only [exec, execSqi, h]; rfl, .inl rfl, by decide, by decide⟩
  | title a b => exact ⟨_, _, _, 0, rfl, .inr ⟨_, rfl⟩, descText_lt _ _ _ _, by decide⟩
  | value a b => exact ⟨_, _, _, 0, rfl, .inr ⟨_, rfl⟩, descText_lt _ _ _ _, by decide⟩

/-! ### The window -/

theorem inWindow_base (off : Nat) (h : off < 0x100) : inWindow (Config.sqcBase + off) = true := by
  simp [inWindow]; omega

theorem inWindow_outside (addr : Nat) (h : addr < Config.sqcBase ∨ Config.sqcBase + 0x100 ≤ addr) :
    inWindow addr = false := by
  simp [inWindow]; omega

/-- An offset whose register is none of the reserved ones is that register's own offset; below a TEXT word lie its four
bytes. -/
theorem Reg.ofOffset_writable (off : Nat) :
    (Reg.ofOffset off = .ctrl → off = 0x04) ∧ (Reg.ofOffset off = .status → off = 0x08) ∧
    (Reg.ofOffset off = .cmd → off = 0x0C) := by
  unfold Reg.ofOffset
  split <;> simp
  split <;> simp

theorem content_congr (s s' : State) (h : s'.block = s.block) (r : Reg) : s'.content r = s.content r := by
  simp only [State.block, BlockView.mk.injEq] at h
  cases r <;> simp [State.content, State.statusWord, h]

/-- A register reads the same in two states with the same block and the same draws. -/
theorem readReg_congr (s s' : State) (h : s'.block = s.block) (hd : s'.draws = s.draws) (r : Reg) :
    s'.readReg r = s.readReg r := by
  have hb : s'.busy = s.busy := congrArg BlockView.busy h
  simp [State.readReg, State.readIsDraw, hb, hd, content_congr s s' h r]

@[simp] theorem afterRead_block (s : State) (r : Reg) : (s.afterRead r).block = s.block := by
  unfold State.afterRead; split <;> rfl

@[simp] theorem afterRead_tables (s : State) (r : Reg) : (s.afterRead r).tables = s.tables := by
  unfold State.afterRead; split <;> rfl

@[simp] theorem afterRead_wait (s : State) (r : Reg) : (s.afterRead r).wait = s.wait := by
  unfold State.afterRead; split <;> rfl

@[simp] theorem afterRead_host (s : State) (r : Reg) : (s.afterRead r).host = s.host := by
  unfold State.afterRead; split <;> rfl

/-- Everything an operation of the host can do: leave the block alone, reset it, acknowledge STATUS, write CMD, or change
the operand registers alone. -/
theorem perform_cases (s t : State) (op : HostOp) (h : s.perform op = .next t) :
    (t.block = s.block ∧ t.tables = s.tables ∧ t.wait = s.wait) ∨
    (t = s.resetBlock ∧ op.mayReset = true) ∨
    (∃ v, op = .write .word (Config.sqcBase + 0x08) v ∧ t = s.acknowledge v) ∨
    (∃ w, op = .write .word (Config.sqcBase + 0x0C) w ∧ t = s.writeCmd w) ∨
    (∃ a, t = { s with args := a }) := by
  cases op with
  | wait =>
    simp only [State.perform, Host.Outcome.next.injEq] at h
    subst h
    refine .inl ⟨?_, ?_, ?_⟩ <;> unfold State.poll <;> split <;> rfl
  | powerOn =>
    simp only [State.perform, Host.Outcome.next.injEq] at h
    exact .inr (.inl ⟨h.symm, rfl⟩)
  | read width addr =>
    left
    simp only [State.perform, State.busRead] at h
    split at h
    · cases width <;> simp only [checkedAccess] at h <;> try contradiction
      split at h <;> try contradiction
      simp only [Host.Outcome.next.injEq] at h
      subst h
      exact ⟨afterRead_block _ _, afterRead_tables _ _, afterRead_wait _ _⟩
    · simp only [Host.Outcome.next.injEq] at h
      subst h
      exact ⟨rfl, rfl, rfl⟩
  | write width addr v =>
    simp only [State.perform, State.busWrite] at h
    split at h
    · rename_i hin
      have hle : Config.sqcBase ≤ addr := by simp [inWindow] at hin; exact hin.1
      obtain ⟨off, rfl⟩ := Nat.exists_eq_add_of_le hle
      rw [Nat.add_sub_cancel_left] at h
      cases width <;> simp only [checkedAccess] at h <;> try contradiction
      split at h <;> try contradiction
      simp only [Host.Outcome.next.injEq] at h
      obtain ⟨hc, hs, hm⟩ := Reg.ofOffset_writable off
      rcases hr : Reg.ofOffset off <;> rw [hr] at h <;> simp only [State.writeReg] at h <;> subst h
      · exact .inl ⟨rfl, rfl, rfl⟩
      · unfold State.writeCtrl
        split
        · rename_i hv
          exact .inr (.inl ⟨rfl, by simp [HostOp.mayReset, hc hr, hv]⟩)
        · exact .inl ⟨rfl, rfl, rfl⟩
      · exact .inr (.inr (.inl ⟨v, by rw [hs hr], rfl⟩))
      · exact .inr (.inr (.inr (.inl ⟨v, by rw [hm hr], rfl⟩)))
      · exact .inr (.inr (.inr (.inr ⟨_, rfl⟩)))
      · exact .inr (.inr (.inr (.inr ⟨_, rfl⟩)))
      · exact .inr (.inr (.inr (.inr ⟨_, rfl⟩)))
      · exact .inr (.inr (.inr (.inr ⟨_, rfl⟩)))
      all_goals exact .inl ⟨rfl, rfl, rfl⟩
    · simp only [Host.Outcome.next.injEq] at h
      subst h
      exact .inl ⟨rfl, rfl, rfl⟩

theorem writeReg_host (s : State) (r : Reg) (v : Word) : (s.writeReg r v).host = s.host := by
  cases r <;> simp only [State.writeReg] <;> try rfl
  · unfold State.writeCtrl; split <;> rfl
  · unfold State.writeCmd
    split
    · rfl
    · split <;> rfl

/-- What is left for the host to do after an operation: what was left before it, and the `WAIT` itself where it goes on. -/
theorem perform_host (s t : State) (op : HostOp) (h : s.perform op = .next t) :
    t.host = s.host ∨ (op = .wait ∧ s.busy = true ∧ t.host = .wait :: s.host) := by
  cases op with
  | wait =>
    simp only [State.perform, Host.Outcome.next.injEq] at h
    subst h
    unfold State.poll
    split
    · rename_i hb; exact .inr ⟨rfl, hb, rfl⟩
    · exact .inl rfl
  | powerOn =>
    simp only [State.perform, Host.Outcome.next.injEq] at h
    subst h; exact .inl rfl
  | read width addr =>
    left
    simp only [State.perform, State.busRead] at h
    split at h
    · cases width <;> simp only [checkedAccess] at h <;> try contradiction
      split at h <;> try contradiction
      simp only [Host.Outcome.next.injEq] at h
      subst h
      exact afterRead_host _ _
    · simp only [Host.Outcome.next.injEq] at h
      subst h; rfl
  | write width addr v =>
    left
    simp only [State.perform, State.busWrite] at h
    split at h
    · cases width <;> simp only [checkedAccess] at h <;> try contradiction
      split at h <;> try contradiction
      simp only [Host.Outcome.next.injEq] at h
      subst h
      exact writeReg_host _ _ _
    · simp only [Host.Outcome.next.injEq] at h
      subst h; rfl

/-- Everything a write of CMD can do: overrun, rejection of an illegal word, or acceptance. -/
theorem writeCmd_cases (s : State) (w : Word) :
    (s.busy = true ∧ s.writeCmd w = s.overrun) ∨
    (s.busy = false ∧ (∃ e, decode w = .error e) ∧ s.writeCmd w = s.rejectIllegal w) ∨
    (s.busy = false ∧ (∃ i, decode w = .ok i) ∧ s.writeCmd w = s.accept w) := by
  unfold State.writeCmd
  by_cases hb : s.busy = true
  · exact .inl ⟨hb, by simp [hb]⟩
  · right
    rcases hd : decode w with e | i
    · exact .inl ⟨by simpa using hb, ⟨e, rfl⟩, by simp [hb]⟩
    · exact .inr ⟨by simpa using hb, ⟨i, rfl⟩, by simp [hb]⟩

/-- Everything a step that is not the completion step can do. -/
theorem hostStep_cases (s t : State) (h : hostStep s = .next t) :
    (s.host = [] ∧ t = s.tick) ∨
    ∃ op rest, s.host = op :: rest ∧ (s.tick.setHost rest).perform op = .next t := by
  unfold hostStep at h
  split at h
  · rename_i he
    simp only [Host.Outcome.next.injEq] at h
    exact .inl ⟨he, h.symm⟩
  · rename_i op rest he
    exact .inr ⟨op, rest, he, h⟩

/-- An operation of the host never faults. -/
theorem perform_ne_fault (s : State) (op : HostOp) (r : Fault) : s.perform op ≠ .fault r := by
  intro h
  cases op with
  | wait => simp [State.perform] at h
  | powerOn => simp [State.perform] at h
  | read width addr =>
    simp only [State.perform, State.busRead] at h
    split at h <;> try contradiction
    cases width <;> simp only [checkedAccess] at h <;> try contradiction
    split at h <;> contradiction
  | write width addr v =>
    simp only [State.perform, State.busWrite] at h
    split at h <;> try contradiction
    cases width <;> simp only [checkedAccess] at h <;> try contradiction
    split at h <;> contradiction

/-- An operation the spec gives a behaviour answers a next state. -/
theorem perform_defined (s : State) (op : HostOp) (h : op.isDefined = true) : ∃ t, s.perform op = .next t := by
  cases op with
  | wait => exact ⟨_, rfl⟩
  | powerOn => exact ⟨_, rfl⟩
  | read width addr =>
    simp only [State.perform, State.busRead]
    split
    · rename_i hin
      simp [HostOp.isDefined, definedAccess, hin] at h
      exact ⟨_, by rw [h.1]; simp only [checkedAccess, h.2, if_true]; rfl⟩
    · exact ⟨_, rfl⟩
  | write width addr v =>
    simp only [State.perform, State.busWrite]
    split
    · rename_i hin
      simp [HostOp.isDefined, definedAccess, hin] at h
      exact ⟨_, by rw [h.1]; simp only [checkedAccess, h.2, if_true]; rfl⟩
    · exact ⟨_, rfl⟩

/-! ### Runs -/

theorem run_succ (k : Nat) (s t : State) (h : step s = .next t) : core.run (k + 1) s = core.run k t := by
  simp only [Host.Core.run, show core.step s = .next t from h]

theorem run_one (s : State) : core.run 1 s = step s := by
  simp only [Host.Core.run, show core.step s = step s from rfl]
  cases step s <;> rfl

/-- While a command waits for its completion step, a step in which the host resets nothing and makes no undefined access
goes on, and counts the wait down. -/
theorem busy_step (s : State) (hb : s.busy = true) (n : Nat) (hw : s.wait = n + 1)
    (ho : ∀ op ∈ s.host, op.mayReset = false ∧ op.isDefined = true) :
    ∃ t, step s = .next t ∧ t.busy = true ∧ t.wait = n ∧ t.latch = s.latch ∧ t.tables = s.tables ∧
      (∀ op ∈ t.host, op.mayReset = false ∧ op.isDefined = true) := by
  rw [step_notDue s (.inr (by omega))]
  unfold hostStep
  split
  · rename_i he
    exact ⟨_, rfl, hb, by simp [State.tick, hw], rfl, rfl, by simp [State.tick, he]⟩
  · rename_i op rest he
    have h1 := ho op (by simp [he])
    obtain ⟨t, hp⟩ := perform_defined (s.tick.setHost rest) op h1.2
    refine ⟨t, hp, ?_⟩
    have hh : ∀ op ∈ t.host, op.mayReset = false ∧ op.isDefined = true := by
      intro op' hm
      rcases perform_host _ _ _ hp with h | ⟨_, _, h⟩ <;> rw [h] at hm
      · exact ho op' (by simp [he]; right; exact hm)
      · rcases List.mem_cons.1 hm with rfl | hm
        · exact ⟨rfl, rfl⟩
        · exact ho op' (by simp [he]; right; exact hm)
    have hwt : (s.tick.setHost rest).wait = n := by simp [hw]
    rcases perform_cases _ _ _ hp with ⟨hbl, h2, h3⟩ | ⟨rfl, hm⟩ | ⟨v, _, rfl⟩ | ⟨w, _, rfl⟩ | ⟨a, rfl⟩
    · exact ⟨(congrArg BlockView.busy hbl).trans hb, h3.trans hwt, congrArg BlockView.latch hbl, h2, hh⟩
    · rw [h1.1] at hm; cases hm
    · exact ⟨hb, hwt, rfl, rfl, hh⟩
    · have : (s.tick.setHost rest).writeCmd w = (s.tick.setHost rest).overrun := by
        simp [State.writeCmd, hb]
      rw [this] at hh ⊢
      exact ⟨hb, hwt, rfl, rfl, hh⟩
    · exact ⟨hb, hwt, rfl, rfl, hh⟩

end Sys2Proof.Machine
end

