-- ==== Sys2Proof/Tests/Slice0.lean ====
section
/-! SUPPORT. Tests of the model against the vectors of 95_test_vectors.md and against words written out from 30_encoding.md,
the smoke tests of well-formedness, and for each statement with hypotheses a witness that meets them. -/

namespace Sys2Proof.Tests

open Sys2Proof.Machine

/-! ### Well-formedness (R6, R82) -/

theorem test_asm_std_out_of_range : (AsmCommand.title 16 0).wellFormed = false := by decide
theorem test_asm_mod_out_of_range : (AsmCommand.sqi 1 16 0).wellFormed = false := by decide
theorem test_asm_cr_out_of_range : (AsmCommand.cnrrel 1 0 16).wellFormed = false := by decide
theorem test_asm_id_out_of_range : (AsmCommand.value 1 512).wellFormed = false := by decide
theorem test_asm_largest_operands : (AsmCommand.value 15 511).wellFormed = true := by decide

/-- The dispatcher tables of configuration T0 (95_test_vectors.md section 2.0). -/
def t0Dispatch : DispatchTables :=
  { commonEnd := [4, 4, 4, 4, 0, 4, 4, 4, 4, 4, 4, 4, 4, 4, 4, 4]
    info :=
      [⟨.common, 0, .defined [0x4C, 0x4F, 0x43, 0x4B] (.list 0)⟩,
       ⟨.common, 1, .defined [0x43, 0x4E, 0x52, 0x5F, 0x49, 0x4E, 0x54] .dec⟩,
       ⟨.common, 2, .defined [0x45, 0x52, 0x52, 0x43, 0x4E, 0x54] .hex⟩,
       ⟨.dvbt, 0, .defined [0x53, 0x48, 0x41, 0x44, 0x4F, 0x57] .dec⟩,
       ⟨.dvbt, 4, .defined [0x43, 0x4F, 0x44, 0x45, 0x5F, 0x52, 0x41, 0x54, 0x45] (.list 1)⟩,
       ⟨.dvbt2, 4, .defined [0x50, 0x4C, 0x50, 0x5F, 0x49, 0x44] .dec⟩,
       ⟨.dvbc, 5, .defined (List.replicate 70 0x41) .dec⟩,
       ⟨.isdbt, 0, .defined [0x53, 0x45, 0x47, 0x4D, 0x45, 0x4E, 0x54, 0x53] .dec⟩,
       ⟨.generic, 4, .defined [0x51, 0x55, 0x41, 0x44] .hex⟩]
    textLists :=
      [[[0x55, 0x6E, 0x6C, 0x6F, 0x63, 0x6B, 0x65, 0x64], [0x4C, 0x6F, 0x63, 0x6B, 0x65, 0x64]],
       [[0x31, 0x2F, 0x32], [0x32, 0x2F, 0x33], [0x33, 0x2F, 0x34], [0x35, 0x2F, 0x36], [0x37, 0x2F, 0x38]]] }

theorem test_t0_wellFormed : t0Dispatch.wf = true := by decide

theorem test_log10_short_table : log10Wf (log10Default.take 99) = false := by decide
theorem test_log10_entry_above_2000 : log10Wf (log10Default.set 1 2001) = false := by decide
theorem test_log10_first_point : log10Wf (log10Default.set 0 1) = false := by decide
theorem test_log10_tenth_point : log10Wf (log10Default.set 9 999) = false := by decide
theorem test_log10_last_point : log10Wf (log10Default.set 99 1999) = false := by decide
theorem test_cnr_wrong_size : ({ dvbtDefault with nmod := 4 } : CnrTable).wf = false := by decide
theorem test_cnr_entry_above_65535 : ({ dvbtDefault with req := dvbtDefault.req.set 0 65536 } : CnrTable).wf = false := by
  decide
theorem test_common_end_size : ({ t0Dispatch with commonEnd := [4] } : DispatchTables).wf = false := by decide
theorem test_common_end_above_512 :
    ({ t0Dispatch with commonEnd := t0Dispatch.commonEnd.set 0 513 } : DispatchTables).wf = false := by decide
theorem test_info_id_above_511 : ({ noDispatch with info := [⟨.dvbt, 512, .notDef⟩] } : DispatchTables).wf = false := by
  decide
theorem test_info_no_such_list :
    ({ noDispatch with info := [⟨.dvbt, 0, .defined [0x41] (.list 0)⟩] } : DispatchTables).wf = false := by decide
theorem test_info_title_with_zero :
    ({ noDispatch with info := [⟨.dvbt, 0, .defined [0x41, 0x00] .dec⟩] } : DispatchTables).wf = false := by decide
theorem test_list_text_above_7F : ({ noDispatch with textLists := [[[0x80]]] } : DispatchTables).wf = false := by
  decide
theorem test_too_many_lists : ({ noDispatch with textLists := List.replicate 257 [] } : DispatchTables).wf = false := by
  decide +kernel

/-- An ill-formed part makes the whole configuration ill formed. -/
theorem test_illformed_tables_refused : (tablesWith { noDispatch with commonEnd := [] }).wf = false := by decide

/-! ### Decoding: words written out from R70, R71 and R78 -/

/-- `TITLE DVBT, 0x100`: ID 1 0000 0000, then bits 15:8 zero, STD 0001, OP 0110. -/
theorem test_decode_title_bits : decode 0b0000000_100000000_0000_0000_0001_0110 = .ok (.title 1 0x100) := by decide
/-- `VALUE ISDBT, 300`: ID 1 0010 1100, STD 0100, OP 0111. -/
theorem test_decode_value_bits : decode 0b0000000_100101100_0000_0000_0100_0111 = .ok (.value 4 300) := by decide
/-- `SQI DVBT2, 3, 5`: CR 0101, MOD 0011, STD 0010, OP 0101. -/
theorem test_decode_sqi_bits : decode 0b0000000_000000000_0101_0011_0010_0101 = .ok (.sqi 2 3 5) := by decide
/-- `CNRREL DVBT, 2, 4`: CR 0100, MOD 0010, STD 0001, OP 0100. -/
theorem test_decode_cnrrel_bits : decode 0b0000000_000000000_0100_0010_0001_0100 = .ok (.cnrrel 1 2 4) := by decide
theorem test_decode_nop : decodeTableWord 32 0x00000000 = some .nop := by decide
theorem test_decode_log10 : decodeTableWord 32 0x00000001 = some .log10 := by decide
theorem test_decode_berscale : decodeTableWord 32 0x00000002 = some .berscale := by decide
theorem test_decode_berscore : decodeTableWord 32 0x00000003 = some .berscore := by decide
theorem test_decode_reserved_op : decode 0x00000008 = .error .reservedOp := by decide
theorem test_decode_all_ones : decode 0xFFFFFFFF = .error .reservedOp := by decide
theorem test_decode_nop_bit4 : decode 0x00000010 = .error .mustBeZero := by decide
theorem test_decode_sqi_bit16 : decode 0x00010015 = .error .mustBeZero := by decide
theorem test_decode_title_bit25 : decode 0x02000016 = .error .mustBeZero := by decide
theorem test_decode_title_bit8 : decode 0x00000116 = .error .mustBeZero := by decide
theorem test_decode_sqi_full : decode 0x0000FFF5 = .ok (.sqi 15 15 15) := by decide
theorem test_encode_cnrrel : encode (.cnrrel 1 2 4) = 0x00004214 := by decide

/-! ### One command from an idle block, configuration T0 (95_test_vectors.md section 2) -/

/-- The tables of T0. -/
def t0 : WfTables := ⟨tablesWith t0Dispatch, tablesWith_wf _ test_t0_wellFormed⟩

/-- The block after reset with the tables of T0 and the operand registers written. -/
def idle (a0 a1 a2 a3 : Word) : State :=
  { State.reset with tables := t0, args := { arg0 := a0, arg1 := a1, arg2 := a2, arg3 := a3 } }

/-- The command word accepted and about to be performed. -/
def issued (w a0 a1 a2 a3 : Word) : State := (idle a0 a1 a2 a3).withFetchWord 32 w.toNat

/-- RESULT, DESC and STATUS after one step. -/
def answer (s : State) : Option (Word × Word × Word) :=
  match step s with
  | .next t => some (t.result, t.desc, t.statusWord)
  | .fault _ => none
  | .refused _ => none

/-- A TEXT word after one step. -/
def answerText (s : State) (i : Fin 16) : Option Word :=
  match step s with
  | .next t => some (textWord t.text i)
  | .fault _ => none
  | .refused _ => none

theorem test_nop : answer (issued 0x00000000 1 2 3 4) = some (0, 0, 2) := by decide
theorem test_log10_truncates : answer (issued 0x00000001 12345 0 0 0) = some (4079, 0x0000030C, 2) := by decide
theorem test_log10_domain : answer (issued 0x00000001 0 0 0 0) = some (0, 0, 0x22) := by decide
theorem test_log10_largest : answer (issued 0x00000001 4294967295 0 0 0) = some (9623, 0x0000082A, 2) := by decide
theorem test_berscale_third : answer (issued 0x00000002 1 3 0 0) = some (3333333, 7, 2) := by decide
theorem test_berscale_degenerate : answer (issued 0x00000002 0 0 0 0) = some (10000000, 0x10, 2) := by decide
theorem test_berscale_band_edge : answer (issued 0x00000002 2150 1000000000 0 0) = some (0, 5, 2) := by decide
theorem test_berscale_band0 : answer (issued 0x00000002 2150000000 4294967295 0 0) = some (0, 0, 2) := by decide
theorem test_berscore_middle : answer (issued 0x00000003 3 100000 0 0) = some (50, 0x00003200, 2) := by decide
theorem test_berscore_no_errors : answer (issued 0x00000003 0 0 0 0) = some (100, 0x00006428, 2) := by decide
theorem test_cnrrel_negative : answer (issued 0x00000014 0 0 0 0) = some (0xFFFFFE02, 0, 2) := by decide
theorem test_cnrrel_floor : answer (issued 0x00004214 15 49 0 0) = some (0xFFFFFD43, 2, 2) := by decide
theorem test_cnrrel_wraps : answer (issued 0x00000014 42949672 96 0 0) = some (0xFFFFFE02, 0, 2) := by decide
theorem test_sqi_truncates : answer (issued 0x00004215 15 55 0 1000) = some (1, 0x00006428, 2) := by decide
theorem test_sqi_noref : answer (issued 0x00006025 90 0 0 1000) = some (0, 1, 2) := by decide
theorem test_sqi_scenario : answer (issued 0x00000015 90 0 0 1000) = some (100, 0x0000642C, 2) := by decide
theorem test_title_cut : answer (issued 0x00050036 0 0 0 0) = some (0, 0x00003F31, 2) := by decide
theorem test_title_cut_last_word : answerText (issued 0x00050036 0 0 0 0) 15 = some 0x00414141 := by decide
theorem test_title_list : answer (issued 0x00040016 0 0 0 0) = some (0, 0x00010913, 2) := by decide
theorem test_value_out_of_range : answer (issued 0x00000017 2 0 0 0) = some (2, 0x00000B07, 2) := by decide
theorem test_value_hex : answer (issued 0x00040077 48879 0 0 0) = some (48879, 0x00000662, 2) := by decide
theorem test_value_hex_text : answerText (issued 0x00040077 48879 0 0 0) 0 = some 0x45427830 := by decide
theorem test_value_dec_text : answerText (issued 0x00010017 4294967295 0 0 0) 2 = some 0x00003539 := by decide
theorem test_value_list_text : answerText (issued 0x00040017 2 0 0 0) 0 = some 0x00342F33 := by decide

/-! ### The registers (95_test_vectors.md section 2.7) -/

theorem test_illegal_word_status : ((idle 0 0 0 0).writeReg .cmd 0x00000008).statusWord = 0x00000012 := by decide
theorem test_overrun_status :
    ((issued 0x00000001 100 0 0 0).writeReg .cmd 0x00000002).statusWord = 0x00000005 := by decide
theorem test_operand_write_while_busy :
    answer ((issued 0x00000001 100 0 0 0).writeReg .arg0 5) = some (2000, 0x00000064, 2) := by decide
theorem test_accept_status : ((idle 0 0 0 0).writeReg .cmd 0x00000000).statusWord = 0x00000001 := by decide
theorem test_id_reads : State.reset.readReg .id = 0x53510001 := by decide
theorem test_status_bit3_reads_zero : (idle 0 0 0 0).readReg .status = 0 := by decide
theorem test_text_offsets : Reg.ofOffset 0x7C = .text 15 ∧ Reg.ofOffset 0x80 = .reserved ∧ Reg.ofOffset 0x3C = .reserved := by
  decide

/-- A TEXT word reads its bytes little-endian (R38): `LOCK` reads 0x4B434F4C. -/
theorem test_text_little_endian : textWord (emit [0x4C, 0x4F, 0x43, 0x4B]) 0 = 0x4B434F4C := by decide

/-- The default tables' corners (R32, R33). -/
theorem test_req_defaults :
    req t0.val 1 0 0 = 510 ∧ req t0.val 1 2 4 = 2250 ∧ req t0.val 2 3 5 = 2510 ∧ req t0.val 2 0 0 = 350 := by decide

/-- The assembler's words (R82), and a line that does not assemble. -/
theorem test_assemble : (AsmCommand.title 1 0x100).assemble = some 0x01000016 ∧ (AsmCommand.title 1 512).assemble = none := by
  decide

/-- `CLEAR` is a write of 6 to STATUS (R83). -/
theorem test_clear_line : HostLine.clear.op = some (.write .word (Config.sqcBase + 0x08) 6) := rfl

/-! ### Witnesses: each statement's hypotheses are met together, each clause at a boundary of its range -/

/-- An idle block of T0 whose host has `op` to do and then nothing. -/
def asks (op : HostOp) : State := { idle 0 0 0 0 with host := [op] }

/-- A block with NOP in execution, `n` steps left to wait, whose host has `op` to do and then nothing. -/
def asksBusy (n : Nat) (op : HostOp) : State := { issued 0 0 0 0 0 with wait := n, host := [op] }

theorem witness_EncodeOfDecodeIsIdentity : decode 0x00005325 = .ok (.sqi 2 3 5) := by decide
theorem witness_AssemblerRefusesOutOfRangeOperands :
    (AsmCommand.cnrrel 15 15 15).assemble = some 0x0000FFF4 ∧ (AsmCommand.sqi 0 0 16).assemble = none ∧
    (AsmCommand.cnrrel 16 0 0).assemble = none ∧ (AsmCommand.value 15 511).assemble = some 0x01FF00F7 ∧
    (AsmCommand.title 0 512).assemble = none := by decide
theorem witness_CmdWriteWhileBusyOnlySetsOverrun : (issued 0 0 0 0 0).busy = true := by decide
theorem witness_IllegalWordIsRejectedAtTheWrite :
    (idle 0 0 0 0).busy = false ∧ decode 8 = .error .reservedOp ∧ decode 0x10 = .error .mustBeZero ∧
    decode 0x00010014 = .error .mustBeZero ∧ decode 0x80000017 = .error .mustBeZero := by decide
theorem witness_LegalWordIsAccepted :
    (idle 0 0 0 0).busy = false ∧ ((0x01FF00F7 : Word) &&& 0xF).toNat < 8 ∧
    (((0x01FF00F7 : Word) &&& 0xF).toNat ≤ 3 → (0x01FF00F7 : Word) &&& 0xFFFFFFF0 = 0) ∧
    (((0x01FF00F7 : Word) &&& 0xF).toNat = 4 ∨ ((0x01FF00F7 : Word) &&& 0xF).toNat = 5 →
      (0x01FF00F7 : Word) &&& 0xFFFF0000 = 0) ∧
    (((0x01FF00F7 : Word) &&& 0xF).toNat = 6 ∨ ((0x01FF00F7 : Word) &&& 0xF).toNat = 7 →
      (0x01FF00F7 : Word) &&& 0xFE00FF00 = 0) := by decide
theorem witness_OutputReadsWhenIdle : (idle 0 0 0 0).busy = false := by decide
theorem witness_OutputReadsWhileBusyAreFree : (issued 0 0 0 0 0).busy = true ∧ Reg.result.isOutput = true := by
  decide
theorem witness_ReadsHaveNoSideEffect : (idle 0 0 0 0).busy = false ∧ Reg.status.isOutput = false := by decide
theorem witness_CtrlWriteResetsTheBlock : (1 : Word).getLsbD 0 = true ∧ (0xFFFFFFFE : Word).getLsbD 0 = false := by decide
theorem witness_WritesToReadOnlyRegistersAreIgnored :
    (0xFFFFFFF9 : Word).getLsbD 1 = false ∧ (0xFFFFFFF9 : Word).getLsbD 2 = false ∧
    Reg.ofOffset 0x28 = .reserved ∧ Reg.ofOffset 0x3C = .reserved ∧ Reg.ofOffset 0x80 = .reserved ∧
    Reg.ofOffset 0xFC = .reserved := by decide
theorem witness_WindowWriteStep :
    (asksBusy 1 (.write .word (Config.sqcBase + 0xFC) 1)).wait = 1 ∧
    (asksBusy 1 (.write .word (Config.sqcBase + 0xFC) 1)).host = [.write .word (Config.sqcBase + 0xFC) 1] := ⟨rfl, rfl⟩
theorem witness_WindowReadStep :
    (asks (.read .word (Config.sqcBase + 0x20))).busy = false ∧
    (asks (.read .word (Config.sqcBase + 0x20))).host = [.read .word (Config.sqcBase + 0x20)] := ⟨rfl, rfl⟩
theorem witness_UndefinedAccessesAreRefused :
    (asks (.write .half (Config.sqcBase + 0xFF) 0)).busy = false ∧ Width.half ≠ .word ∧ 0xFF < 0x100 ∧ 0xFF % 4 ≠ 0 ∧
    (asks (.write .half (Config.sqcBase + 0xFF) 0)).host = [.write .half (Config.sqcBase + 0xFF) 0] ∧
    (asks (.read .word (Config.sqcBase + 1))).host = [.read .word (Config.sqcBase + 1)] :=
  ⟨rfl, by decide, by decide, by decide, rfl, rfl⟩
theorem witness_AccessesOutsideTheWindowDoNothing :
    (asks (.read .byte (Config.sqcBase + 0x100))).busy = false ∧ Config.sqcBase + 0x100 ≤ Config.sqcBase + 0x100 ∧
    (asks (.read .byte (Config.sqcBase + 0x100))).host = [.read .byte (Config.sqcBase + 0x100)] :=
  ⟨rfl, Nat.le_refl _, rfl⟩
theorem witness_NopCompletes : (0x10 : Word) &&& 0xF = 0 ∧ (0x10 : Word) ≠ 0 := by decide

/-- Exponent 0 at 100, 1 at 101, 3 at 12345, 8 at 2^32 - 1. -/
theorem witness_Log10Completes :
    (issued 1 0 0 0 0).latch.arg.arg0 = 0 ∧
    (issued 1 12345 0 0 0).latch.arg.arg0 ≠ 0 ∧ 12345 / 10 ^ 3 ≤ 100 ∧ (∀ k < 3, 100 < 12345 / 10 ^ k) ∧
    100 / 10 ^ 0 ≤ 100 ∧ 101 / 10 ^ 1 ≤ 100 ∧ (∀ k < 1, 100 < 101 / 10 ^ k) ∧
    4294967295 / 10 ^ 8 ≤ 100 ∧ (∀ k < 8, 100 < 4294967295 / 10 ^ k) := by decide
theorem witness_Log10ResultIsBounded :
    (issued 1 4294967295 0 0 0).latch.arg.arg0 ≠ 0 ∧ (issued 1 4294967295 0 0 0).tables.val.log10 = log10Default := by
  decide
theorem log10Default_rises :
    ∀ x y : Nat, x ≤ y → y < 100 → (log10Default[x]?).getD 0 ≤ (log10Default[y]?).getD 0 := by
  have h : ∀ y < 100, ∀ x < y + 1, (log10Default[x]?).getD 0 ≤ (log10Default[y]?).getD 0 := by decide
  exact fun x y hx hy => h y hy x (by omega)
theorem witness_Log10FollowsTheTable :
    (issued 1 2 0 0 0).tables = (issued 1 1 0 0 0).tables ∧ (issued 1 1 0 0 0).latch.arg.arg0 ≠ 0 ∧
    (issued 1 1 0 0 0).latch.arg.arg0.toNat ≤ (issued 1 2 0 0 0).latch.arg.arg0.toNat ∧
    (issued 1 1 0 0 0).tables.val.log10 = log10Default ∧ 1 ≤ (issued 1 100 0 0 0).latch.arg.arg0.toNat ∧
    (issued 1 100 0 0 0).latch.arg.arg0.toNat ≤ 100 := by decide

/-- Degenerate at total 0 and at errors equal to total; bands 7, 6 and 0, and 0 where no band passes. -/
theorem witness_BerscaleCompletes :
    (issued 2 1 0 0 0).latch.arg.arg1 = 0 ∧
    (issued 2 5 5 0 0).latch.arg.arg1.toNat ≤ (issued 2 5 5 0 0).latch.arg.arg0.toNat ∧
    (issued 2 214 1000 0 0).latch.arg.arg0.toNat < (issued 2 214 1000 0 0).latch.arg.arg1.toNat ∧
    214 < 215 * 10 ^ (7 - 7) ∧ 215 < 215 * 10 ^ (7 - 6) ∧ (∀ j, 6 < j → j ≤ 7 → 215 * 10 ^ (7 - j) ≤ 215) ∧
    2149999999 < 215 * 10 ^ (7 - 0) ∧ (∀ j, 0 < j → j ≤ 7 → 215 * 10 ^ (7 - j) ≤ 2149999999) ∧
    (∀ j, 0 < j → j ≤ 7 → 215 * 10 ^ (7 - j) ≤ 2150000000) := by
  refine ⟨by decide, by decide, by decide, by decide, by decide, ?_, by decide, ?_, ?_⟩ <;>
    intro j h1 h2 <;> interval_cases j <;> decide
theorem witness_BerscaleNeverOverflows :
    (issued 2 4294967294 4294967295 0 0).latch.arg.arg0.toNat < (issued 2 4294967294 4294967295 0 0).latch.arg.arg1.toNat := by
  decide
theorem witness_BerscaleIsMonotoneWithinABand :
    answer (issued 2 213 1000 0 0) = some (2130000, 7, 2) ∧ answer (issued 2 214 1000 0 0) = some (2140000, 7, 2) ∧
    (issued 2 2149 1000000000 0 0).latch.arg.arg0 = 2149 ∧ (issued 2 2150 1000000000 0 0).latch.arg.arg1 = 1000000000 := by
  decide
theorem witness_BerScoreFollowsTheLogarithm :
    1000 / 10 ^ 1 ≤ 100 ∧ (∀ k < 1, 100 < 1000 / 10 ^ k) ∧ 9999999 / 10 ^ 5 ≤ 100 ∧ (∀ k < 5, 100 < 9999999 / 10 ^ k) := by
  decide
theorem witness_BerscoreCompletes :
    (issued 3 0 0 0 0).latch.arg.arg0 = 0 ∧ (issued 3 3 100000 0 0).latch.arg.arg0 ≠ 0 ∧ 33333 = 100000 / 3 := by
  decide
theorem witness_BerscoreRange : (issued 3 1 1000 0 0).tables.val.log10 = log10Default := by decide

/-- The last modulation and code rate of DVB-T has a reference and the next ones have none; relative CNR at -700, -701, 300
and 301. -/
theorem witness_CnrrelCompletes :
    hasRef t0.val 1 2 4 = true ∧ hasRef t0.val 1 3 0 = false ∧ hasRef t0.val 1 0 5 = false ∧ hasRef t0.val 3 0 0 = false ∧
    cnrRel t0.val 1 2 4 15 50 = -700 ∧ cnrRel t0.val 1 2 4 15 49 = -701 ∧ cnrRel t0.val 1 0 0 8 10 = 300 ∧
    cnrRel t0.val 1 0 0 8 11 = 301 := by decide
theorem witness_SqiCompletes :
    hasRef (issued 0x00004215 15 50 0 1000).tables.val 1 2 4 = true ∧
    cnrRel (issued 0x00004215 15 50 0 1000).tables.val 1 2 4 15 50 = -700 ∧
    cnrRel (issued 0x00004215 15 49 0 1000).tables.val 1 2 4 15 49 = -701 ∧
    hasRef (issued 0x00000315 90 0 0 1000).tables.val 1 3 0 = false ∧ berScore t0.val 100000000 = 100 := by decide
theorem witness_SqiIsAlwaysZeroToOneHundred :
    hasRef (issued 0x00004215 15 49 0 1000).tables.val 1 2 4 = true ∧
    cnrRel (issued 0x00004215 15 49 0 1000).tables.val 1 2 4 15 49 < -700 := by decide
/-- The last entry of each default table (R33), by its row and its column. -/
theorem witness_ReferenceTablesOfTwoStandards :
    hasRef t0.val 1 2 4 = true ∧ t0.val.dvbt.req[2 * 5 + 4]? = some 2250 ∧ t0.val.dvbt.ncr = 5 ∧
    hasRef t0.val 2 3 5 = true ∧ t0.val.dvbt2.req[3 * 6 + 5]? = some 2510 ∧ t0.val.dvbt2.ncr = 6 ∧
    req t0.val 1 1 0 = 1080 ∧ req t0.val 1 0 1 = 690 := by decide
theorem witness_DecoderClassSelection :
    t0Dispatch.commonEnd[(1 : BitVec 4).toNat]? = some 4 ∧ t0Dispatch.commonEnd[(4 : BitVec 4).toNat]? = some 0 ∧
    classOf t0Dispatch 1 3 = .common ∧ classOf t0Dispatch 1 4 = .dvbt ∧ classOf t0Dispatch 4 0 = .isdbt ∧
    classOf t0Dispatch 6 4 = .generic := by decide
theorem witness_EmitCutsAndZeroFills :
    (emit (List.replicate 70 0x41))[62] = 0x41 ∧ (emit (List.replicate 70 0x41))[63] = 0 ∧ (emit [])[0] = 0 := by
  decide
theorem witness_DecimalTextReadsBack : (decText 0).head? = some 0x30 ∧ decText 1234 = [0x31, 0x32, 0x33, 0x34] := by decide
theorem witness_HexadecimalTextReadsBack : hexText 0 = [0x30, 0x78, 0x30] ∧ hexText 255 = [0x30, 0x78, 0x46, 0x46] := by
  decide
theorem witness_TitleCompletes :
    info t0Dispatch (classOf t0Dispatch 1 3) 3 = .notDef ∧
    info t0Dispatch (classOf t0Dispatch 1 0) 0 = .defined [0x4C, 0x4F, 0x43, 0x4B] (.list 0) ∧
    info t0Dispatch (classOf t0Dispatch 6 4) 4 = .defined [0x51, 0x55, 0x41, 0x44] .hex := by decide
theorem witness_ValueCompletes :
    info t0Dispatch (classOf t0Dispatch 2 4) 4 = .defined [0x50, 0x4C, 0x50, 0x5F, 0x49, 0x44] .dec ∧
    info t0Dispatch (classOf t0Dispatch 6 4) 4 = .defined [0x51, 0x55, 0x41, 0x44] .hex ∧
    info t0Dispatch (classOf t0Dispatch 1 3) 3 = .notDef ∧
    info t0Dispatch (classOf t0Dispatch 1 0) 0 = .defined [0x4C, 0x4F, 0x43, 0x4B] (.list 0) ∧
    t0Dispatch.textLists[0]? =
      some [[0x55, 0x6E, 0x6C, 0x6F, 0x63, 0x6B, 0x65, 0x64], [0x4C, 0x6F, 0x63, 0x6B, 0x65, 0x64]] := by decide
theorem witness_DispatchIsTotal : Instr.title 1 3 = .title 1 3 ∧ info t0Dispatch (classOf t0Dispatch 1 3) 3 = .notDef := by
  decide
theorem witness_TitleAndValuePartitionIdsAlike : (issued 0x17 5 0 0 0).tables = (issued 0x16 0 0 0 0).tables := rfl
theorem witness_EveryCommandCompletes : Instr.log10 = .log10 ∧ (issued 1 0 0 0 0).latch.arg.arg0 = 0 := by decide
theorem witness_ArithmeticCommandsFrame :
    (∀ std id, Instr.nop ≠ .title std id) ∧ (∀ std id, Instr.nop ≠ .value std id) ∧
    exec .nop (issued 0 0 0 0 0) = .next ((issued 0 0 0 0 0).putOutcome 0 0).finish := ⟨nofun, nofun, rfl⟩
theorem witness_TelemetryCommandsFrame : ∃ t, exec (.title 1 0) (issued 0x16 0 0 0 0) = .next t := ⟨_, rfl⟩
theorem witness_OutcomeDependsOnTheLatchAlone :
    ({ issued 2 1 3 0 0 with text := emit notDefText, cmd := 7 } : State).latch.arg = (issued 2 1 3 0 0).latch.arg ∧
    ({ issued 2 1 3 0 0 with text := emit notDefText, cmd := 7 } : State).tables = (issued 2 1 3 0 0).tables := ⟨rfl, rfl⟩
theorem witness_StepRunsTheLatchedCommand :
    (issued 0x16 0 0 0 0).busy = true ∧ (issued 0x16 0 0 0 0).wait = 0 ∧
    decode (issued 0x16 0 0 0 0).latch.cmd = .ok (.title 1 0) := by decide
theorem witness_PowerOnResetState :
    0 < (asksBusy 1 .powerOn).wait ∧ (asksBusy 1 .powerOn).host = [.powerOn] ∧ (asks .powerOn).busy = false :=
  ⟨by decide, rfl, rfl⟩

/-- A block with a command in execution meets the invariant. -/
theorem issued_inv : (issued 0x00000016 0 0 0 0).Inv :=
  ⟨fun _ => ⟨.title 1 0, by decide⟩, fun _ => rfl, nofun, by decide, by decide, by decide⟩

theorem witness_StepKeepsTheInvariant :
    (issued 0x00000016 0 0 0 0).Inv ∧ ∃ t, step (issued 0x00000016 0 0 0 0) = .next t := by
  refine ⟨issued_inv, ?_⟩
  rw [step_due _ rfl rfl, completionStep_ok _ (.title 1 0) (by decide)]
  exact ⟨_, rfl⟩
theorem witness_NoStepFaultsUnderTheInvariant : (issued 0x00000016 0 0 0 0).Inv := issued_inv
theorem witness_NoStepChangesTheTables : step (asks .powerOn) = .next ((asks .powerOn).tick.setHost []).resetBlock := rfl

/-- An aligned 32-bit write inside the window, from a state where the completion step is not due. -/
theorem write_answers (off : Nat) (v : Word) (ho : off < 0x100) (ha : off % 4 = 0) (s : State)
    (hn : s.busy = false ∨ 0 < s.wait) (hh : s.host = [.write .word (Config.sqcBase + off) v]) :
    step s = .next ((s.tick.setHost []).writeReg (Reg.ofOffset off) v) := by
  rw [step_notDue s hn]
  simp [hostStep, hh, State.perform, State.busWrite, inWindow_base off ho, checkedAccess, ha]

theorem witness_OverrunIsSticky :
    (issued 0 0 0 0 0).busy = true ∧
    ∃ t, step { asks (.write .word (Config.sqcBase + 0x08) 4) with ovr := true } = .next t ∧ t.ovr = false :=
  ⟨rfl, _, write_answers 0x08 4 (by decide) (by decide) _ (.inl rfl) rfl, rfl⟩
theorem witness_BusyChangesOnlyByAcceptanceCompletionAndReset :
    (∃ t, step (asks (.write .word (Config.sqcBase + 0x0C) 0)) = .next t ∧ t.busy = true) ∧
    (∃ t, step (asksBusy 0 .wait) = .next t ∧ t.busy = false) ∧
    (∃ t, step (asksBusy 1 (.write .word (Config.sqcBase + 0x04) 1)) = .next t ∧ t.busy = false) :=
  ⟨⟨_, write_answers 0x0C 0 (by decide) (by decide) _ (.inl rfl) rfl, rfl⟩, ⟨_, rfl, rfl⟩,
    _, write_answers 0x04 1 (by decide) (by decide) _ (.inr Nat.one_pos) rfl, rfl⟩
theorem witness_OutcomeIsStableUntilCompletionOrReset :
    (∃ t, step (asks .wait) = .next t) ∧ (asks .wait).busy = false ∧
    ∀ op rest, (asks .wait).host = op :: rest → op.mayReset = false :=
  ⟨⟨_, rfl⟩, rfl, by rintro op rest h; cases h; rfl⟩
theorem witness_CompletionIsReached :
    (asksBusy 3 .wait).busy = true ∧ decode (asksBusy 3 .wait).latch.cmd = .ok .nop ∧
    ∀ op ∈ (asksBusy 3 .wait).host, op.mayReset = false ∧ op.isDefined = true :=
  ⟨rfl, by decide, by intro op h; simp [asksBusy] at h; subst h; exact ⟨rfl, rfl⟩⟩
theorem witness_WaitEndsWithDone :
    (asksBusy 3 .wait).busy = true ∧ decode (asksBusy 3 .wait).latch.cmd = .ok .nop ∧ (asksBusy 3 .wait).host = [.wait] :=
  ⟨rfl, by decide, rfl⟩

/-- A row below two others, a row below one of another class with its id, and a pair with no row. -/
theorem witness_InfoIsTheRowOfTheClassAndId :
    t0Dispatch.info = t0Dispatch.info.take 2 ++ ⟨.common, 2, .defined [0x45, 0x52, 0x52, 0x43, 0x4E, 0x54] .hex⟩ ::
      t0Dispatch.info.drop 3 ∧
    (∀ r ∈ t0Dispatch.info.take 2, r.cls = .common → r.id ≠ (2 : BitVec 9).toNat) ∧
    (∀ r ∈ t0Dispatch.info.take 3, r.cls = .dvbt → r.id ≠ (0 : BitVec 9).toNat) ∧
    (∀ r ∈ t0Dispatch.info, r.cls = .common → r.id ≠ (3 : BitVec 9).toNat) ∧
    info t0Dispatch .dvbt 0 = .defined [0x53, 0x48, 0x41, 0x44, 0x4F, 0x57] .dec := by decide

/-- `Not Defined`, read off as words (95_test_vectors.md section 2.6). -/
theorem test_not_defined_words :
    textWord (emit notDefText) 0 = 0x20746F4E ∧ textWord (emit notDefText) 1 = 0x69666544 ∧
    textWord (emit notDefText) 2 = 0x0064656E := by decide

end Sys2Proof.Tests
end

-- The CNR tables (00_scope.md R10, 10_state.md R33, 41_sqi.md R120).
section

namespace Sys2Proof.Machine

@[simp] theorem cnrTable_one (t : Tables) : cnrTable t 1 = t.dvbt := rfl
@[simp] theorem cnrTable_two (t : Tables) : cnrTable t 2 = t.dvbt2 := rfl

/-- `hasRef` as a proposition: one of the two standards, and both indices below its table's dimensions (R120). -/
theorem hasRef_iff (t : Tables) (std mod cr : BitVec 4) :
    hasRef t std mod cr = true ↔
      (std = 1 ∨ std = 2) ∧ mod.toNat < (cnrTable t std).nmod ∧ cr.toNat < (cnrTable t std).ncr := by
  simp only [hasRef, Bool.and_eq_true, Bool.or_eq_true, decide_eq_true_eq, ← BitVec.toNat_inj, and_assoc]
  rfl

/-- The two CNR tables of a well-formed configuration are well formed (R6). -/
theorem cnrTables_wf (t : WfTables) : t.val.dvbt.wf = true ∧ t.val.dvbt2.wf = true := by
  have h := t.property
  simp only [Tables.wf, Bool.and_eq_true] at h
  obtain ⟨⟨⟨_, hdvbt⟩, hdvbt2⟩, _⟩ := h
  exact ⟨hdvbt, hdvbt2⟩

/-- Where there is a reference, `req` is a listed entry of the standard's table and not its default (R10, R33). -/
theorem req_listed (t : Tables) (std mod cr : BitVec 4) (hwf : (cnrTable t std).wf = true)
    (href : hasRef t std mod cr = true) :
    (cnrTable t std).req[mod.toNat * (cnrTable t std).ncr + cr.toNat]? = some (req t std mod cr) := by
  obtain ⟨_, hmod, hcr⟩ := (hasRef_iff t std mod cr).mp href
  exact cnrTable_entry_listed _ hwf _ _ hmod hcr

/-- Settles O32: `hasRef` standard by standard, and `req` as the entry that well-formedness says is listed. -/
theorem referenceTablesOfTwoStandards : Obligations.ReferenceTablesOfTwoStandards := by
  unfold Obligations.ReferenceTablesOfTwoStandards
  refine ⟨fun t std mod cr => ?_, fun t mod cr => ?_⟩
  · rw [hasRef_iff, or_and_right]
    refine or_congr (and_congr_right ?_) (and_congr_right ?_)
    · rintro rfl
      rw [cnrTable_one]
    · rintro rfl
      rw [cnrTable_two]
  · obtain ⟨hdvbt, hdvbt2⟩ := cnrTables_wf t
    exact ⟨req_listed t.val 1 mod cr hdvbt, req_listed t.val 2 mod cr hdvbt2⟩

end Sys2Proof.Machine
end

-- What one step does to the block, and the invariant it keeps (10_state.md R23 to R31, R42, 20_memory.md R60).
section

namespace Sys2Proof.Machine

/-- The completion step is not due, so that the step is the host's (R30, R59). -/
abbrev State.NotDue (s : State) : Prop := s.busy = false ∨ 0 < s.wait

/-- Everything a step that answers a next state can be, one constructor for each way it acts on the block. The host's
operation is performed in `s.tick.setHost rest`: one step less to wait, and `rest` still to come. -/
inductive StepEffect (s : State) : State → Prop where
  /-- The completion step of the latched command (R30, R78). -/
  | completion {t : State} (i : Instr) (hbusy : s.busy = true) (hwait : s.wait = 0)
      (hdec : decode s.latch.cmd = .ok i) (hexec : exec i s = .next t) : StepEffect s t
  /-- No operation, a read, a poll, or a write that is ignored (R53 to R55). -/
  | blockKept {t : State} (hdue : s.NotDue) (hblock : t.block = s.block) (htables : t.tables = s.tables) :
      StepEffect s t
  /-- Power-on or soft reset (R220, R221). -/
  | reset (op : HostOp) (rest : List HostOp) (hdue : s.NotDue) (hhost : s.host = op :: rest)
      (hreset : op.mayReset = true) : StepEffect s (s.tick.setHost rest).resetBlock
  /-- A write of STATUS (R23). -/
  | acknowledge (v : Word) (rest : List HostOp) (hdue : s.NotDue)
      (hhost : s.host = .write .word (Config.sqcBase + 0x08) v :: rest) :
      StepEffect s ((s.tick.setHost rest).acknowledge v)
  /-- A write of CMD while BUSY (R204). -/
  | overrun (w : Word) (rest : List HostOp) (hdue : s.NotDue)
      (hhost : s.host = .write .word (Config.sqcBase + 0x0C) w :: rest) (hbusy : s.busy = true) :
      StepEffect s (s.tick.setHost rest).overrun
  /-- A write of an illegal word to CMD (R202). -/
  | reject (w : Word) (e : DecodeError) (rest : List HostOp) (hdue : s.NotDue)
      (hhost : s.host = .write .word (Config.sqcBase + 0x0C) w :: rest) (hidle : s.busy = false)
      (hdec : decode w = .error e) : StepEffect s ((s.tick.setHost rest).rejectIllegal w)
  /-- A write of a legal word to CMD (R78). -/
  | accept (w : Word) (i : Instr) (rest : List HostOp) (hdue : s.NotDue)
      (hhost : s.host = .write .word (Config.sqcBase + 0x0C) w :: rest) (hidle : s.busy = false)
      (hdec : decode w = .ok i) : StepEffect s ((s.tick.setHost rest).accept w)
  /-- A write of an operand register (R29). -/
  | operands (a : Operands) (rest : List HostOp) (hdue : s.NotDue) :
      StepEffect s { s.tick.setHost rest with args := a }

/-- A completion step that answers a next state is that of a command. -/
theorem completionStep_next {s t : State} (h : completionStep s = .next t) :
    ∃ i, decode s.latch.cmd = .ok i ∧ exec i s = .next t := by
  rcases hd : decode s.latch.cmd with e | i
  · simp [completionStep, hd] at h
  · exact ⟨i, rfl, by rwa [completionStep_ok s i hd] at h⟩

/-- What an operation of the host does is an effect of the step that performs it. -/
theorem stepEffect_of_perform {s t : State} {op : HostOp} {rest : List HostOp} (hdue : s.NotDue)
    (hhost : s.host = op :: rest) (h : (s.tick.setHost rest).perform op = .next t) : StepEffect s t := by
  rcases perform_cases _ _ _ h with ⟨hblock, htables, _⟩ | ⟨rfl, hreset⟩ | ⟨v, rfl, rfl⟩ | ⟨w, rfl, rfl⟩ | ⟨a, rfl⟩
  · exact .blockKept hdue hblock htables
  · exact .reset op rest hdue hhost hreset
  · exact .acknowledge v rest hdue hhost
  · rcases writeCmd_cases (s.tick.setHost rest) w with ⟨hbusy, hw⟩ | ⟨hidle, ⟨e, hdec⟩, hw⟩ |
      ⟨hidle, ⟨i, hdec⟩, hw⟩ <;> rw [hw]
    · exact .overrun w rest hdue hhost hbusy
    · exact .reject w e rest hdue hhost hidle hdec
    · exact .accept w i rest hdue hhost hidle hdec
  · exact .operands a rest hdue

/-- Every step that answers a next state is one of these. -/
theorem stepEffect {s t : State} (h : step s = .next t) : StepEffect s t := by
  rcases due_or_notDue s with ⟨hbusy, hwait⟩ | hdue
  · rw [step_due s hbusy hwait] at h
    obtain ⟨i, hdec, hexec⟩ := completionStep_next h
    exact .completion i hbusy hwait hdec hexec
  · rw [step_notDue s hdue] at h
    rcases hostStep_cases s t h with ⟨_, rfl⟩ | ⟨op, rest, hhost, hperform⟩
    · exact .blockKept hdue rfl rfl
    · exact stepEffect_of_perform hdue hhost hperform

/-! ### The invariant -/

/-- The invariant speaks of the block alone. -/
theorem State.Inv.congr_block {s t : State} (h : s.Inv) (hb : t.block = s.block) : t.Inv := by
  obtain ⟨hlatched, hshown, hexclusive, hcode, hterminated, hdescriptor⟩ := h
  simp only [State.block, BlockView.mk.injEq] at hb
  obtain ⟨h1, h2, _, h4, h5, _, _, h8, h9, h10⟩ := hb
  constructor <;> simpa only [h1, h2, h4, h5, h8, h9, h10]

/-- Reset establishes the invariant whatever stood before (R41). -/
theorem State.inv_resetBlock (s : State) : s.resetBlock.Inv where
  latched := nofun
  shown := nofun
  exclusive := nofun
  code := by simp
  terminated := by simp
  descriptor := by simp

/-- A completion step keeps the invariant: TEXT stays or is what `emit` wrote (R156). -/
theorem inv_of_exec {i : Instr} {s t : State} (hs : s.Inv) (h : exec i s = .next t) : t.Inv := by
  obtain ⟨text, result, desc, err, hexec, htext, hdesc, herr⟩ := exec_spec i s
  rw [hexec, Host.Outcome.next.injEq] at h
  subst h
  refine ⟨nofun, nofun, nofun, herr, ?_, hdesc⟩
  rcases htext with rfl | ⟨t, rfl⟩
  · exact hs.terminated
  · exact emit_zero t 63 (by decide) (emitLen_le t)

/-- Settles O51: the state after reset is its own reset. -/
theorem resetMeetsTheInvariant : Obligations.ResetMeetsTheInvariant :=
  State.inv_resetBlock State.reset

/-- Settles O52, by what each kind of step writes: only a completion step touches TEXT and DESC, and only the acceptance
of a legal word, which clears DONE, sets BUSY. -/
theorem stepKeepsTheInvariant : Obligations.StepKeepsTheInvariant := by
  intro s t hs hstep
  have ⟨hlatched, hshown, hexclusive, hcode, hterminated, hdescriptor⟩ := hs
  cases stepEffect hstep with
  | completion i _ _ _ hexec => exact inv_of_exec hs hexec
  | blockKept _ hblock _ => exact hs.congr_block hblock
  | reset => exact State.inv_resetBlock _
  | acknowledge =>
    exact ⟨hlatched, hshown, fun ⟨hb, hd⟩ => hexclusive ⟨hb, (Bool.and_eq_true_iff.1 hd).1⟩, hcode, hterminated,
      hdescriptor⟩
  | overrun => exact ⟨hlatched, hshown, hexclusive, hcode, hterminated, hdescriptor⟩
  | reject w e rest _ _ hidle =>
    exact ⟨by simp [hidle], by simp [hidle], by simp [hidle], by simp [errIllegal], hterminated, hdescriptor⟩
  | accept w i rest _ _ _ hdec =>
    exact ⟨fun _ => ⟨i, hdec⟩, fun _ => rfl, nofun, hcode, hterminated, hdescriptor⟩
  | operands => exact ⟨hlatched, hshown, hexclusive, hcode, hterminated, hdescriptor⟩

/-! ### What changes the tables, OVR, BUSY and the outcome -/

/-- A completion step leaves the tables and OVR. -/
theorem exec_tables_ovr {i : Instr} {s t : State} (h : exec i s = .next t) :
    t.tables = s.tables ∧ t.ovr = s.ovr := by
  obtain ⟨text, result, desc, err, hexec, _⟩ := exec_spec i s
  rw [hexec, Host.Outcome.next.injEq] at h
  subst h
  exact ⟨rfl, rfl⟩

/-- Settles O54: neither a completion step nor any effect of the host's step, reset included, writes the tables. -/
theorem noStepChangesTheTables : Obligations.NoStepChangesTheTables := by
  intro s t hstep
  cases stepEffect hstep with
  | completion i _ _ _ hexec => exact (exec_tables_ovr hexec).1
  | blockKept _ _ htables => exact htables
  | _ => rfl

/-- Settles O55: of all the effects of a step, a reset and a write of STATUS alone can clear OVR. -/
theorem overrunIsSticky : Obligations.OverrunIsSticky := by
  refine ⟨fun s w hbusy => ?_, fun s v hbit => by simp [State.writeReg, hbit], fun s t hstep hset hclear => ?_⟩
  · simp [State.writeReg, State.writeCmd, hbusy]
  · cases stepEffect hstep with
    | completion i _ _ _ hexec => simp [(exec_tables_ovr hexec).2, hset] at hclear
    | blockKept _ hblock _ => simp [show t.ovr = s.ovr from congrArg BlockView.ovr hblock, hset] at hclear
    | reset op rest _ hhost hreset => exact ⟨op, rest, hhost, .inl hreset⟩
    | acknowledge v rest _ hhost => exact ⟨_, rest, hhost, .inr ⟨v, rfl, by simpa [hset] using hclear⟩⟩
    | _ => simp [hset] at hclear

/-- Settles O56: only an acceptance sets BUSY, and only a completion step and a reset clear it. -/
theorem busyChangesOnlyByAcceptanceCompletionAndReset :
    Obligations.BusyChangesOnlyByAcceptanceCompletionAndReset := by
  intro s t hstep
  cases stepEffect hstep with
  | completion i hbusy hwait hdec hexec =>
    exact ⟨fun hidle => by simp [hidle] at hbusy, fun _ _ => .inl ⟨i, hwait, hdec, hexec⟩⟩
  | blockKept _ hblock _ => simp +contextual [show t.busy = s.busy from congrArg BlockView.busy hblock]
  | reset op rest _ hhost hreset => exact ⟨fun _ => nofun, fun _ _ => .inr ⟨op, rest, hhost, hreset⟩⟩
  | accept w i rest _ hhost _ hdec => exact ⟨fun _ _ => ⟨w, rest, i, hhost, hdec, rfl⟩, fun _ => nofun⟩
  | _ => simp +contextual

/-- Settles O57: the premises leave out the two effects that write RESULT, DESC and TEXT. -/
theorem outcomeIsStableUntilCompletionOrReset : Obligations.OutcomeIsStableUntilCompletionOrReset := by
  intro s t hstep hdue hnoReset
  cases stepEffect hstep with
  | completion i hbusy hwait => simp [hbusy, hwait] at hdue
  | blockKept _ hblock _ =>
    exact ⟨congrArg BlockView.result hblock, congrArg BlockView.desc hblock, congrArg BlockView.text hblock⟩
  | reset op rest _ hhost hreset => simp [hnoReset op rest hhost] at hreset
  | _ => exact ⟨rfl, rfl, rfl⟩

end Sys2Proof.Machine
end

-- What every command writes and what its outcome depends on (10_state.md R30, R38, R40, 60_exceptions.md R201, R203).
section

namespace Sys2Proof.Machine

/-- The commands that write TEXT (R158, R160). -/
def IsTelemetry (i : Instr) : Prop := ∃ std id, i = .title std id ∨ i = .value std id

/-- The code a command ends with: DOMAIN for LOG10 of 0, else OK (R201, R203). -/
def endCode (i : Instr) (arg : Operands) : BitVec 4 := if i = .log10 ∧ arg.arg0 = 0 then errDomain else errOk

/-- LOG10 of 0 raises DOMAIN (R102, R203). -/
theorem exec_log10_zero (s : State) (h : s.latch.arg.arg0 = 0) :
    exec .log10 s = .next ((s.putOutcome 0 0).endCommand errDomain) := by
  simp [exec, execLog10, State.operand0, h]

/-- A command other than TITLE and VALUE writes a RESULT, a DESC and its end code, the same from every state with the same
latched operands and tables. -/
theorem exec_arithmetic (i : Instr) (hi : ¬ IsTelemetry i) (s : State) :
    ∃ result desc : Word, ∀ s' : State, s'.latch.arg = s.latch.arg → s'.tables = s.tables →
      exec i s' = .next ((s'.putOutcome result desc).endCommand (endCode i s.latch.arg)) := by
  cases i with
  | nop => exact ⟨0, 0, fun _ _ _ => rfl⟩
  | log10 =>
    by_cases h : s.latch.arg.arg0 = 0
    · exact ⟨0, 0, fun s' harg _ => by simpa [endCode, h] using exec_log10_zero s' (harg ▸ h)⟩
    · have hn : ¬ s.latch.arg.arg0.toNat = 0 := by simpa [← BitVec.toNat_inj] using h
      exact ⟨_, _, fun s' harg htab => by
        simp only [exec, execLog10, State.operand0, endCode, harg, htab, h, hn, if_false, and_false]; rfl⟩
  | berscale =>
    by_cases h : s.latch.arg.arg1.toNat = 0 ∨ s.latch.arg.arg1.toNat ≤ s.latch.arg.arg0.toNat
    · exact ⟨_, _, fun s' harg _ => by
        simp only [exec, execBerscale, State.operand0, State.operand1, harg, h, if_true]; rfl⟩
    · exact ⟨_, _, fun s' harg _ => by
        simp only [exec, execBerscale, State.operand0, State.operand1, harg, h, if_false]; rfl⟩
  | berscore =>
    exact ⟨_, _, fun s' harg htab => by
      simp only [exec, execBerscore, State.operand0, State.operand1, harg, htab]; rfl⟩
  | cnrrel std mod cr =>
    by_cases h : hasRef s.tables.val std mod cr = true
    · exact ⟨_, _, fun s' harg htab => by
        simp only [exec, execCnrrel, State.operand0, State.operand1, harg, htab, h, if_true]; rfl⟩
    · exact ⟨_, _, fun s' _ htab => by simp only [exec, execCnrrel, htab, if_neg h]; rfl⟩
  | sqi std mod cr =>
    by_cases h : hasRef s.tables.val std mod cr = true
    · by_cases hfloor : cnrRel s.tables.val std mod cr s.latch.arg.arg0 s.latch.arg.arg1 < -700
      · exact ⟨_, _, fun s' harg htab => by
          simp only [exec, execSqi, State.operand0, State.operand1, harg, htab, h, hfloor, if_true]; rfl⟩
      · exact ⟨_, _, fun s' harg htab => by
          simp only [exec, execSqi, State.operand0, State.operand1, State.operand2, State.operand3, harg, htab, h,
            hfloor, if_true, if_false]
          rfl⟩
    · exact ⟨_, _, fun s' _ htab => by simp only [exec, execSqi, htab, if_neg h]; rfl⟩
  | title std id => exact absurd ⟨std, id, .inl rfl⟩ hi
  | value std id => exact absurd ⟨std, id, .inr rfl⟩ hi

/-- TITLE and VALUE write TEXT, RESULT and DESC and end without an error, the same from every state with the same latched
operands and tables. -/
theorem exec_telemetry (i : Instr) (hi : IsTelemetry i) (s : State) :
    ∃ (text : Vector Byte 64) (result desc : Word), ∀ s' : State,
      s'.latch.arg = s.latch.arg → s'.tables = s.tables →
      exec i s' = .next (((s'.putText text).putOutcome result desc).endCommand errOk) := by
  obtain ⟨std, id, rfl | rfl⟩ := hi
  · exact ⟨_, _, _, fun s' _ htab => by simp only [exec, execTitle, htab]; rfl⟩
  · exact ⟨_, _, _, fun s' harg htab => by simp only [exec, execValue, State.operand0, harg, htab]; rfl⟩

theorem endCode_of_isTelemetry {i : Instr} (hi : IsTelemetry i) (arg : Operands) : endCode i arg = errOk := by
  obtain ⟨std, id, rfl | rfl⟩ := hi <;> simp [endCode]

/-- Every command completes, with BUSY 0, DONE 1 and its end code (R30, R201). -/
theorem exec_completes (i : Instr) (s : State) :
    ∃ t, exec i s = .next t ∧ t.busy = false ∧ t.done = true ∧ t.err = endCode i s.latch.arg := by
  by_cases hi : IsTelemetry i
  · obtain ⟨text, result, desc, h⟩ := exec_telemetry i hi s
    exact ⟨_, h s rfl rfl, rfl, rfl, (endCode_of_isTelemetry hi _).symm⟩
  · obtain ⟨result, desc, h⟩ := exec_arithmetic i hi s
    exact ⟨_, h s rfl rfl, rfl, rfl, rfl⟩

/-- Settles O45: `endCode` is the ERR of the statement, and LOG10 of 0 is a case of its own. -/
theorem everyCommandCompletes : Obligations.EveryCommandCompletes := by
  intro i s
  obtain ⟨t, hexec, hbusy, hdone, herr⟩ := exec_completes i s
  refine ⟨t, hexec, hbusy, hdone, herr, ?_⟩
  rintro rfl hzero
  rw [exec_log10_zero s hzero, Host.Outcome.next.injEq] at hexec
  subst hexec
  exact ⟨rfl, rfl⟩

/-- Settles O46: `putOutcome` and `endCommand` write these five fields. -/
theorem arithmeticCommandsFrame : Obligations.ArithmeticCommandsFrame := by
  intro i s t hnotTitle hnotValue hexec
  have hi : ¬ IsTelemetry i := fun ⟨std, id, h⟩ => h.elim (hnotTitle std id) (hnotValue std id)
  obtain ⟨result, desc, h⟩ := exec_arithmetic i hi s
  rw [h s rfl rfl, Host.Outcome.next.injEq] at hexec
  subst hexec
  rfl

/-- Settles O47: `putText` adds TEXT to the five fields. -/
theorem telemetryCommandsFrame : Obligations.TelemetryCommandsFrame := by
  intro std id i s t hi hexec
  obtain ⟨text, result, desc, h⟩ := exec_telemetry i ⟨std, id, hi⟩ s
  rw [h s rfl rfl, Host.Outcome.next.injEq] at hexec
  subst hexec
  rfl

/-- Settles O48: what a command writes is chosen before the state it is written to. -/
theorem outcomeDependsOnTheLatchAlone : Obligations.OutcomeDependsOnTheLatchAlone := by
  intro i s s' harg htab
  by_cases hi : IsTelemetry i
  · obtain ⟨text, result, desc, h⟩ := exec_telemetry i hi s
    exact ⟨_, _, h s rfl rfl, h s' harg htab, rfl, rfl, rfl, fun _ => rfl⟩
  · obtain ⟨result, desc, h⟩ := exec_arithmetic i hi s
    exact ⟨_, _, h s rfl rfl, h s' harg htab, rfl, rfl, rfl, fun htelemetry => absurd htelemetry hi⟩

/-- Settles O49: the due step is the completion step, which runs what the latch decodes to. -/
theorem stepRunsTheLatchedCommand : Obligations.StepRunsTheLatchedCommand := by
  intro s i hbusy hwait hdec
  rw [step_due s hbusy hwait, completionStep_ok s i hdec]

end Sys2Proof.Machine
end

-- The rows of `INFO` (10_state.md R35, 42_dispatch.md R151).
section

namespace Sys2Proof.Machine

/-- The row is listed for the class and the id. -/
def rowIsOf (cls : DecoderClass) (id : BitVec 9) (r : InfoRow) : Bool :=
  decide (r.cls = cls) && decide (r.id = id.toNat)

theorem rowIsOf_iff (cls : DecoderClass) (id : BitVec 9) (r : InfoRow) :
    rowIsOf cls id r = true ↔ r.cls = cls ∧ r.id = id.toNat := by
  simp [rowIsOf]

/-- `info` is a search from the top of the list, with `NotDef` where nothing is found. -/
theorem info_eq_find? (d : DispatchTables) (cls : DecoderClass) (id : BitVec 9) :
    info d cls id = ((d.info.find? (rowIsOf cls id)).map InfoRow.entry).getD .notDef := by
  unfold info
  split
  · next r hfind => simp [show d.info.find? (rowIsOf cls id) = some r from hfind]
  · next hfind => simp [show d.info.find? (rowIsOf cls id) = none from hfind]

/-- Settles O60, by what a search from the top finds. -/
theorem infoIsTheRowOfTheClassAndId : Obligations.InfoIsTheRowOfTheClassAndId := by
  refine ⟨fun d cls id => ⟨fun above below row hinfo hcls hid habove => ?_, fun hnone => ?_⟩, fun d std id => rfl⟩
  · have hfind : d.info.find? (rowIsOf cls id) = some row :=
      List.find?_eq_some_iff_append.2 ⟨(rowIsOf_iff cls id row).2 ⟨hcls, hid⟩, above, below, hinfo,
        fun r hr => by simpa [rowIsOf, not_and_or.symm] using habove r hr⟩
    simp [info_eq_find?, hfind]
  · have hfind : d.info.find? (rowIsOf cls id) = none :=
      List.find?_eq_none.2 fun r hr h => hnone r hr ((rowIsOf_iff cls id r).1 h).1 ((rowIsOf_iff cls id r).1 h).2
    simp [info_eq_find?, hfind]

end Sys2Proof.Machine
end

-- The register window: the map, reads, and writes of the host's registers (10_state.md R20 to R29, R37, R38, R41).
section

namespace Sys2Proof.Machine

/-! ### The register map -/

/-- The offset of each TEXT word (R20). -/
theorem Reg.ofOffset_text (i : Fin 16) : Reg.ofOffset (0x40 + 4 * i.val) = .text i := by
  revert i; decide

/-- From 0x28 to 0x3C and from 0x80 on, no register answers (R20). -/
theorem Reg.ofOffset_reserved (off : Nat) (h : (0x28 ≤ off ∧ off ≤ 0x3C) ∨ 0x80 ≤ off) :
    Reg.ofOffset off = .reserved := by
  have hnotText : ¬ (0x40 ≤ off ∧ off < 0x80) := by omega
  unfold Reg.ofOffset
  split
  case h_11 => exact if_neg hnotText
  all_goals omega

/-- Settles O9: TEXT and the reserved ranges by their lemmas, each other offset by evaluation. -/
theorem registerMapOffsets : Obligations.RegisterMapOffsets :=
  ⟨rfl, rfl, rfl, rfl, rfl, rfl, rfl, rfl, rfl, rfl, Reg.ofOffset_text,
    fun off hlow hhigh => Reg.ofOffset_reserved off (.inl ⟨hlow, hhigh⟩),
    fun off hlow => Reg.ofOffset_reserved off (.inr hlow)⟩

/-! ### Reads -/

/-- A register that holds no outcome reads as its content, BUSY or not (R225). -/
theorem readReg_of_not_isOutput (s : State) (r : Reg) (h : r.isOutput = false) : s.readReg r = s.content r := by
  simp [State.readReg, State.readIsDraw, h]

/-- While BUSY is 0 every register reads as its content (R225). -/
theorem readReg_of_idle (s : State) (r : Reg) (h : s.busy = false) : s.readReg r = s.content r := by
  simp [State.readReg, State.readIsDraw, h]

theorem State.statusWord_ovr (s : State) : s.statusWord.getLsbD 2 = s.ovr := by
  have hbusy := Bool.toNat_le s.busy
  have hdone := Bool.toNat_le s.done
  rw [bit_eq, s.statusWord_toNat]
  cases s.ovr <;> simp only [Bool.toNat_true, Bool.toNat_false, decide_eq_true_eq, decide_eq_false_iff_not] <;> omega

/-- Below ERR the STATUS word holds the three flags alone, in bits 2 to 0 (R23). -/
theorem State.statusWord_flags_err (s : State) : ∃ flags < 8, s.statusWord.toNat = flags + 16 * s.err.toNat := by
  have hbusy := Bool.toNat_le s.busy
  have hdone := Bool.toNat_le s.done
  have hovr := Bool.toNat_le s.ovr
  exact ⟨_, by omega, s.statusWord_toNat⟩

theorem State.statusWord_bit3 (s : State) : s.statusWord.getLsbD 3 = false := by
  obtain ⟨flags, hflags, hword⟩ := s.statusWord_flags_err
  rw [bit_eq, hword, decide_eq_false_iff_not]
  omega

theorem State.statusWord_err (s : State) : s.statusWord.extractLsb' 4 4 = s.err := by
  obtain ⟨flags, hflags, hword⟩ := s.statusWord_flags_err
  have herr := s.err.isLt
  rw [← BitVec.toNat_inj, field_toNat, hword]
  omega

theorem State.statusWord_high (s : State) : s.statusWord.extractLsb' 8 24 = 0 := by
  obtain ⟨flags, hflags, hword⟩ := s.statusWord_flags_err
  have herr := s.err.isLt
  rw [← BitVec.toNat_inj, field_toNat, hword, show (0 : BitVec 24).toNat = 0 from rfl]
  omega

/-- Settles O10: each of these registers reads as its content, and STATUS by its fields. -/
theorem definedReadsReturnTheRegister : Obligations.DefinedReadsReturnTheRegister := by
  intro s
  have hread := fun r h => readReg_of_not_isOutput s r h
  have hstatus : s.readReg .status = s.statusWord := hread .status rfl
  rw [hstatus]
  exact ⟨hread .id rfl, hread .ctrl rfl, hread .cmd rfl, hread .arg0 rfl, hread .arg1 rfl, hread .arg2 rfl,
    hread .arg3 rfl, hread .reserved rfl, s.statusWord_busy, s.statusWord_done, s.statusWord_ovr, s.statusWord_bit3,
    s.statusWord_err, s.statusWord_high⟩

/-- A TEXT word as a number (R38). -/
theorem textWord_toNat (t : Vector Byte 64) (i : Fin 16) :
    (textWord t i).toNat = t[4 * i.val].toNat + 2 ^ 8 * t[4 * i.val + 1].toNat + 2 ^ 16 * t[4 * i.val + 2].toNat
      + 2 ^ 24 * t[4 * i.val + 3].toNat := by
  refine (append_toNat (t[4 * i.val + 3] ++ t[4 * i.val + 2] ++ t[4 * i.val + 1]) _).trans ?_
  simp only [append_toNat]
  omega

/-- Byte `j` of a TEXT word (R38, R51). -/
theorem textWord_byte (t : Vector Byte 64) (i : Fin 16) (j : Fin 4) :
    (textWord t i).extractLsb' (8 * j.val) 8 = t[4 * i.val + j.val] := by
  have h0 := t[4 * i.val].isLt
  have h1 := t[4 * i.val + 1].isLt
  have h2 := t[4 * i.val + 2].isLt
  have h3 := t[4 * i.val + 3].isLt
  rw [← BitVec.toNat_inj, field_toNat, textWord_toNat]
  fin_cases j <;> simp only [Nat.mul_zero, Nat.add_zero, Nat.reduceMul, Nat.reducePow] <;> omega

/-- Settles O11: an idle block reads as its content, and a TEXT word byte by byte. -/
theorem outputReadsWhenIdle : Obligations.OutputReadsWhenIdle := by
  intro s hidle
  refine ⟨readReg_of_idle s _ hidle, readReg_of_idle s _ hidle, fun i j => ?_⟩
  rw [readReg_of_idle s _ hidle]
  exact textWord_byte s.text i j

/-! ### Writes -/

/-- Settles O14: the operand registers are no outputs, so that they read as they are held. -/
theorem operandWritesStoreTheWord : Obligations.OperandWritesStoreTheWord := by
  intro s v
  exact ⟨rfl, rfl, rfl, rfl, readReg_of_not_isOutput _ .arg0 rfl, readReg_of_not_isOutput _ .arg1 rfl,
    readReg_of_not_isOutput _ .arg2 rfl, readReg_of_not_isOutput _ .arg3 rfl⟩

/-- Settles O15: clearing by a bit is the conjunction with its complement. -/
theorem statusWriteClearsOnlyDoneAndOverrun : Obligations.StatusWriteClearsOnlyDoneAndOverrun := by
  intro s v
  have hclear : ∀ flag bit : Bool, (flag && !bit) = if bit = true then false else flag := by decide
  simp only [State.writeReg, State.acknowledge, hclear]

/-! ### Reset -/

/-- Every TEXT byte of a reset block is zero (R41). -/
theorem State.resetBlock_text_get (s : State) (j : Fin 64) : s.resetBlock.text[j] = 0 := by
  simp

/-- Every register of a reset block but ID reads zero (R41). -/
theorem State.resetBlock_readReg (s : State) (r : Reg) (h : r ≠ .id) : s.resetBlock.readReg r = 0 := by
  rw [readReg_of_idle _ r rfl]
  cases r with
  | id => contradiction
  | text i => simp [State.content, textWord]
  | status => simp [State.content, State.statusWord]
  | _ => rfl

/-- Settles O16: the state that bit 0 leaves is `resetBlock`. -/
theorem ctrlWriteResetsTheBlock : Obligations.CtrlWriteResetsTheBlock := by
  refine fun s v => ⟨fun hset => ⟨s.resetBlock, ?_, rfl, rfl, rfl, rfl, rfl, rfl, rfl, rfl, s.resetBlock_text_get, rfl,
    rfl, rfl⟩, fun hclear => ?_, readReg_of_not_isOutput s .ctrl rfl⟩
  · simp only [State.writeReg, State.writeCtrl, hset, if_true]
  · simp only [State.writeReg, State.writeCtrl, hclear, Bool.false_eq_true, if_false]

/-- A step whose operation is power-on reset resets the block (R220). -/
theorem step_powerOn (s : State) (rest : List HostOp) (hdue : s.NotDue)
    (hhost : s.host = .powerOn :: rest) : step s = .next (s.tick.setHost rest).resetBlock := by
  rw [step_notDue s hdue]
  simp [hostStep, hhost, State.perform]

/-- Settles O50: both states are states that a reset of the block leaves. -/
theorem powerOnResetState : Obligations.PowerOnResetState := by
  have hread := State.resetBlock_readReg
  have hid : ∀ s : State, s.readReg .id = 0x53510001 := fun s => readReg_of_not_isOutput s .id rfl
  refine ⟨hread State.reset, hid _, rfl, State.reset.resetBlock_text_get, fun s rest hdue hhost => ?_⟩
  exact ⟨_, step_powerOn s rest hdue hhost, hread _, hid _, rfl, State.resetBlock_text_get _, rfl, rfl⟩

end Sys2Proof.Machine
end

-- The host's accesses to the window (20_memory.md R50 to R55, R59).
section

namespace Sys2Proof.Machine

/-! ### A register's reads and writes -/

/-- A read whose word is specified leaves the whole state, for it draws nothing (R55, R225). -/
theorem afterRead_of_specified (s : State) (r : Reg) (h : s.busy = false ∨ r.isOutput = false) :
    s.afterRead r = s := by
  have hdraw : s.readIsDraw r = false := by rcases h with h | h <;> simp [State.readIsDraw, h]
  simp [State.afterRead, hdraw]

/-- The draw that a read may count is no word given to the host. -/
@[simp] theorem afterRead_returned (s : State) (r : Reg) : (s.afterRead r).returned = s.returned := by
  unfold State.afterRead; split <;> rfl

/-- Settles O13: the second read of a specified word is made in the very same state. -/
theorem readsHaveNoSideEffect : Obligations.ReadsHaveNoSideEffect := by
  intro s r
  exact ⟨afterRead_block s r, afterRead_tables s r, afterRead_wait s r,
    fun hspecified => by rw [afterRead_of_specified s r hspecified]⟩

/-- Of the word written to STATUS bits 1 and 2 alone count (R23). -/
theorem State.acknowledge_congr (s : State) {v w : Word} (h1 : v.getLsbD 1 = w.getLsbD 1)
    (h2 : v.getLsbD 2 = w.getLsbD 2) : s.acknowledge v = s.acknowledge w := by
  simp only [State.acknowledge, h1, h2]

/-- A write of zero to STATUS clears nothing (R23). -/
theorem State.acknowledge_zero (s : State) : s.acknowledge 0 = s := by
  simp [State.acknowledge]

/-- Of the word written to CTRL bit 0 alone counts (R22). -/
theorem State.writeCtrl_congr (s : State) {v w : Word} (h0 : v.getLsbD 0 = w.getLsbD 0) :
    s.writeCtrl v = s.writeCtrl w := by
  simp only [State.writeCtrl, h0]

/-- Settles O17: the masks 6 and 1 keep the bits that count, and the reserved offsets are one register. -/
theorem writesToReadOnlyRegistersAreIgnored : Obligations.WritesToReadOnlyRegistersAreIgnored := by
  intro s v
  refine ⟨rfl, rfl, rfl, fun _ => rfl, s.acknowledge_congr ?_ ?_, s.acknowledge_zero, s.writeCtrl_congr ?_, rfl,
    fun off hoff => ?_⟩
  · simp
  · simp
  · simp
  · rw [Reg.ofOffset_reserved off (hoff.imp_right And.left)]
    exact ⟨rfl, readReg_of_not_isOutput s .reserved rfl⟩

/-! ### What an access is checked for -/

theorem checkedAccess_aligned (off : Nat) (s : State) (h : off % 4 = 0) : checkedAccess .word off s = .next s :=
  if_pos h

theorem checkedAccess_misaligned (off : Nat) (s : State) (h : off % 4 ≠ 0) :
    checkedAccess .word off s = .refused .misalignedAccess :=
  if_neg h

theorem checkedAccess_subWord (width : Width) (off : Nat) (s : State) (h : width ≠ .word) :
    checkedAccess width off s = .refused .subWordAccess := by
  cases width with
  | byte => rfl
  | half => rfl
  | word => contradiction

/-! ### One step of the host -/

/-- Where the completion step is not due, the step performs the host's next operation (R30, R59). -/
theorem step_host (s : State) (op : HostOp) (rest : List HostOp) (hdue : s.NotDue) (hhost : s.host = op :: rest) :
    step s = (s.tick.setHost rest).perform op := by
  rw [step_notDue s hdue]
  simp only [hostStep, hhost]

/-- A read in the window is a checked read of the register at its offset (R50). -/
theorem perform_windowRead (s : State) (width : Width) (off : Nat) (h : off < 0x100) :
    s.perform (.read width (Config.sqcBase + off)) =
      checkedAccess width off ((s.afterRead (Reg.ofOffset off)).giveWord (s.readReg (Reg.ofOffset off))) := by
  simp only [State.perform, State.busRead, inWindow_base off h, if_true, Nat.add_sub_cancel_left]

/-- A write in the window is a checked write of the register at its offset (R50). -/
theorem perform_windowWrite (s : State) (width : Width) (off : Nat) (v : Word) (h : off < 0x100) :
    s.perform (.write width (Config.sqcBase + off) v) =
      checkedAccess width off (s.writeReg (Reg.ofOffset off) v) := by
  simp only [State.perform, State.busWrite, inWindow_base off h, if_true, Nat.add_sub_cancel_left]

/-- An access outside the window leaves the state (R50, log entry 10). -/
theorem perform_outside (s : State) (width : Width) (addr : Nat) (v : Word)
    (h : addr < Config.sqcBase ∨ Config.sqcBase + 0x100 ≤ addr) :
    s.perform (.read width addr) = .next s ∧ s.perform (.write width addr v) = .next s := by
  simp [State.perform, State.busRead, State.busWrite, inWindow_outside addr h]

/-- Settles O18: the state the write is performed in is `s.tick.setHost rest`. -/
theorem windowWriteStep : Obligations.WindowWriteStep := by
  intro s off v rest hdue hoff haligned hhost
  rw [step_host s _ rest hdue hhost, perform_windowWrite _ _ off v hoff, checkedAccess_aligned off _ haligned]
  rfl

/-- Settles O19: a read leaves the block, and a register reads the same after the tick as before it. -/
theorem windowReadStep : Obligations.WindowReadStep := by
  intro s off rest hdue hoff haligned hhost
  rw [step_host s _ rest hdue hhost, perform_windowRead _ _ off hoff, checkedAccess_aligned off _ haligned]
  have hword : (s.tick.setHost rest).readReg (Reg.ofOffset off) = s.readReg (Reg.ofOffset off) :=
    readReg_congr s _ rfl rfl _
  exact ⟨_, rfl, afterRead_block _ _, afterRead_tables _ _, afterRead_wait _ _, afterRead_host _ _,
    congrArg₂ List.cons hword (afterRead_returned _ _)⟩

/-- An access in the window, read or write, is a checked access that would leave some state. -/
theorem step_windowAccess (s : State) (width : Width) (off : Nat) (v : Word) (rest : List HostOp) (hdue : s.NotDue)
    (hoff : off < 0x100) (hhost : s.host = .read width (Config.sqcBase + off) :: rest ∨
      s.host = .write width (Config.sqcBase + off) v :: rest) :
    ∃ t, step s = checkedAccess width off t := by
  rcases hhost with hread | hwrite
  · exact ⟨_, (step_host s _ rest hdue hread).trans (perform_windowRead _ width off hoff)⟩
  · exact ⟨_, (step_host s _ rest hdue hwrite).trans (perform_windowWrite _ width off v hoff)⟩

/-- Settles O20: the check refuses whatever the access would leave. -/
theorem undefinedAccessesAreRefused : Obligations.UndefinedAccessesAreRefused := by
  intro s width off v rest hdue hoff hhost
  obtain ⟨t, hstep⟩ := step_windowAccess s width off v rest hdue hoff hhost
  rw [hstep]
  refine ⟨checkedAccess_subWord width off t, ?_⟩
  rintro rfl hmisaligned
  exact checkedAccess_misaligned off t hmisaligned

/-- Settles O21: the step goes by, and the access is the host's alone. -/
theorem accessesOutsideTheWindowDoNothing : Obligations.AccessesOutsideTheWindowDoNothing := by
  intro s width addr v rest hdue haddr hhost
  obtain ⟨hread, hwrite⟩ := perform_outside (s.tick.setHost rest) width addr v haddr
  rcases hhost with hhost | hhost
  · exact (step_host s _ rest hdue hhost).trans hread
  · exact (step_host s _ rest hdue hhost).trans hwrite

end Sys2Proof.Machine
end

-- The command word (30_encoding.md R70 to R80): decoding and encoding are inverse, and the opcode map.
section

namespace Sys2Proof

/-! ### The decoder and the encoder -/

/-- OP of a command word selects its command, and the fields read back what was put into them (R70, R71). -/
theorem commandOf_encode (i : Instr) : commandOf (encode i) = some i := by
  have ⟨_, _, _, _, hcnrrel, hsqi, htitle, hvalue, _⟩ := commandOf_op (encode i)
  cases i with
  | nop | log10 | berscale | berscore => rfl
  | cnrrel std mod cr =>
    have hw := encode_cnrrel_toNat std mod cr
    rw [hcnrrel (by omega), Option.some.injEq, Instr.cnrrel.injEq]
    simp only [← BitVec.toNat_inj, stdField_toNat, modField_toNat, crField_toNat]
    omega
  | sqi std mod cr =>
    have hw := encode_sqi_toNat std mod cr
    rw [hsqi (by omega), Option.some.injEq, Instr.sqi.injEq]
    simp only [← BitVec.toNat_inj, stdField_toNat, modField_toNat, crField_toNat]
    omega
  | title std id =>
    have hw := encode_title_toNat std id
    rw [htitle (by omega), Option.some.injEq, Instr.title.injEq]
    simp only [← BitVec.toNat_inj, stdField_toNat, idField_toNat]
    omega
  | value std id =>
    have hw := encode_value_toNat std id
    rw [hvalue (by omega), Option.some.injEq, Instr.value.injEq]
    simp only [← BitVec.toNat_inj, stdField_toNat, idField_toNat]
    omega

/-- A command word has no must-be-zero bit set (R72). -/
theorem legalNat_encode (i : Instr) : LegalNat (encode i).toNat := by
  cases i with
  | nop | log10 | berscale | berscore => decide
  | cnrrel std mod cr => rw [encode_cnrrel_toNat]; omega
  | sqi std mod cr => rw [encode_sqi_toNat]; omega
  | title std id => rw [encode_title_toNat]; omega
  | value std id => rw [encode_value_toNat]; omega

theorem decode_encode (i : Instr) : decode (encode i) = .ok i := by
  have hcmd := commandOf_encode i
  exact (decode_ok_iff _ i).2 ⟨hcmd, (mbz_clear_iff _ i hcmd).2 (legalNat_encode i).2⟩

/-- Where the must-be-zero bits are clear, what is left of a word is the fields of its command (R72, R76). -/
theorem encode_of_decode {w : Word} {i : Instr} (h : decode w = .ok i) : encode i = w := by
  obtain ⟨hcmd, hmbz⟩ := (decode_ok_iff w i).1 h
  rw [mbz_clear_iff w i hcmd] at hmbz
  rw [← BitVec.toNat_inj]
  rw [commandOf, opField_toNat] at hcmd
  split at hcmd <;> cases hcmd
  all_goals
    simp only [encode_nop_toNat, encode_log10_toNat, encode_berscale_toNat, encode_berscore_toNat,
      encode_cnrrel_toNat, encode_sqi_toNat, encode_title_toNat, encode_value_toNat, stdField_toNat,
      modField_toNat, crField_toNat, idField_toNat]
    omega

theorem decode_ok_iff_encode (w : Word) (i : Instr) : decode w = .ok i ↔ encode i = w :=
  ⟨encode_of_decode, fun h => h ▸ decode_encode i⟩

/-- Decoding by arithmetic: the word's number is that of the command's word. -/
theorem decode_ok_iff_toNat (w : Word) (i : Instr) : decode w = .ok i ↔ (encode i).toNat = w.toNat := by
  rw [decode_ok_iff_encode, BitVec.toNat_inj]

/-- Settles O1: OP selects the command, and its must-be-zero bits are clear. -/
theorem decodeOfEncodeIsIdentity : Obligations.DecodeOfEncodeIsIdentity :=
  decode_encode

/-- Settles O2, operation by operation: the fields and OP make up the whole word. -/
theorem encodeOfDecodeIsIdentity : Obligations.EncodeOfDecodeIsIdentity :=
  fun _ _ => encode_of_decode

/-- Settles O4: each word is the word of its command. -/
theorem sampleWordsDecode : Obligations.SampleWordsDecode :=
  ⟨decode_encode .nop, decode_encode .log10, decode_encode .berscale, decode_encode .berscore,
    decode_encode (.sqi 1 0 0), decode_encode (.sqi 2 3 5), decode_encode (.cnrrel 1 2 4),
    decode_encode (.title 1 0x100), decode_encode (.value 4 300)⟩

/-! ### The opcode map -/

/-- A row with every bit in its mask matches the one word of a command (R80). -/
theorem full_row_iff_decode (w : Word) (i : Instr) : w &&& 0xFFFFFFFF = encode i ↔ decode w = .ok i := by
  rw [Laws.OneRow.full_row, decode_ok_iff_toNat, eq_comm]

/-- A word that matches no row is illegal (R79, R80). -/
theorem decode_error_iff_no_row (w : Word) :
    (∃ e, decode w = .error e) ↔
      (w ≠ 0 ∧ w ≠ 1 ∧ w ≠ 2 ∧ w ≠ 3 ∧ w &&& 0xFFFF000F ≠ 4 ∧ w &&& 0xFFFF000F ≠ 5 ∧
        w &&& 0xFE00FF0F ≠ 6 ∧ w &&& 0xFE00FF0F ≠ 7) := by
  rw [decode_error_iff_nat]
  simp only [ne_eq, Laws.OneRow.cnr_row, Laws.OneRow.text_row]
  simp only [← BitVec.toNat_inj, BitVec.reduceToNat, LegalNat]
  omega

/-- Settles O3, row by row: what the mask leaves free is what the fields of the command hold. -/
theorem opcodeMapByMatchAndMask : Obligations.OpcodeMapByMatchAndMask := by
  intro w
  refine ⟨full_row_iff_decode w .nop, full_row_iff_decode w .log10, full_row_iff_decode w .berscale,
    full_row_iff_decode w .berscore, ?cnrrel, ?sqi, ?title, ?value, decode_error_iff_no_row w⟩
  case cnrrel =>
    simp only [Laws.OneRow.cnr_row, decode_ok_iff_toNat, encode_cnrrel_toNat, field_toNat, BitVec.reduceToNat]
    omega
  case sqi =>
    simp only [Laws.OneRow.cnr_row, decode_ok_iff_toNat, encode_sqi_toNat, field_toNat, BitVec.reduceToNat]
    omega
  case title =>
    simp only [Laws.OneRow.text_row, decode_ok_iff_toNat, encode_title_toNat, field_toNat, BitVec.reduceToNat]
    omega
  case value =>
    simp only [Laws.OneRow.text_row, decode_ok_iff_toNat, encode_value_toNat, field_toNat, BitVec.reduceToNat]
    omega

end Sys2Proof
end

-- The assembler (30_encoding.md R82).
section

namespace Sys2Proof

/-- A well-formed command assembles to the number of its word (R82). -/
theorem assemble_eq_ofNat {c : AsmCommand} {n : Nat} (hwf : c.wellFormed = true)
    (hword : (encode c.toInstr).toNat = n) : c.assemble = some (BitVec.ofNat 32 n) := by
  subst hword
  simp [AsmCommand.assemble, hwf]

theorem assemble_eq_none {c : AsmCommand} (hwf : ¬ c.wellFormed = true) : c.assemble = none :=
  if_neg hwf

/-- Well-formedness asks each operand to be in its field's range (R82). -/
theorem wellFormed_cnrrel_sqi (std mod cr : Nat) :
    ((AsmCommand.cnrrel std mod cr).wellFormed = true ↔ std < 16 ∧ mod < 16 ∧ cr < 16) ∧
    ((AsmCommand.sqi std mod cr).wellFormed = true ↔ std < 16 ∧ mod < 16 ∧ cr < 16) := by
  simp [AsmCommand.wellFormed, and_assoc]

theorem wellFormed_title_value (std id : Nat) :
    ((AsmCommand.title std id).wellFormed = true ↔ std < 16 ∧ id < 512) ∧
    ((AsmCommand.value std id).wellFormed = true ↔ std < 16 ∧ id < 512) := by
  simp [AsmCommand.wellFormed]

/-- Settles O5: an operand in range is the number its field holds, and one out of range is not well formed. -/
theorem assemblerRefusesOutOfRangeOperands : Obligations.AssemblerRefusesOutOfRangeOperands := by
  refine ⟨fun std mod cr hstd hmod hcr => ?_, fun std mod cr hout => ?_, fun std id hstd hid => ?_,
    fun std id hout => ?_, rfl, rfl, rfl, rfl⟩
  · obtain ⟨hcnrrel, hsqi⟩ := wellFormed_cnrrel_sqi std mod cr
    refine ⟨assemble_eq_ofNat (hcnrrel.2 ⟨hstd, hmod, hcr⟩) ?_, assemble_eq_ofNat (hsqi.2 ⟨hstd, hmod, hcr⟩) ?_⟩
    · simp only [AsmCommand.toInstr, encode_cnrrel_toNat, BitVec.toNat_ofNat]
      omega
    · simp only [AsmCommand.toInstr, encode_sqi_toNat, BitVec.toNat_ofNat]
      omega
  · obtain ⟨hcnrrel, hsqi⟩ := wellFormed_cnrrel_sqi std mod cr
    exact ⟨assemble_eq_none (mt hcnrrel.1 (by omega)), assemble_eq_none (mt hsqi.1 (by omega))⟩
  · obtain ⟨htitle, hvalue⟩ := wellFormed_title_value std id
    refine ⟨assemble_eq_ofNat (htitle.2 ⟨hstd, hid⟩) ?_, assemble_eq_ofNat (hvalue.2 ⟨hstd, hid⟩) ?_⟩
    · simp only [AsmCommand.toInstr, encode_title_toNat, BitVec.toNat_ofNat]
      omega
    · simp only [AsmCommand.toInstr, encode_value_toNat, BitVec.toNat_ofNat]
      omega
  · obtain ⟨htitle, hvalue⟩ := wellFormed_title_value std id
    exact ⟨assemble_eq_none (mt htitle.1 (by omega)), assemble_eq_none (mt hvalue.1 (by omega))⟩

end Sys2Proof
end

-- Writing CMD while the block is idle (30_encoding.md R78, R79, 60_exceptions.md R202).
section

namespace Sys2Proof.Machine

/-- What a legal word is, by OP and the masks of the must-be-zero bits (R72, R79). -/
theorem legalNat_iff_masks (w : Word) :
    LegalNat w.toNat ↔
      (w &&& 0xF).toNat < 8 ∧ ((w &&& 0xF).toNat ≤ 3 → w &&& 0xFFFFFFF0 = 0) ∧
      ((w &&& 0xF).toNat = 4 ∨ (w &&& 0xF).toNat = 5 → w &&& 0xFFFF0000 = 0) ∧
      ((w &&& 0xF).toNat = 6 ∨ (w &&& 0xF).toNat = 7 → w &&& 0xFE00FF00 = 0) := by
  simp only [LegalNat, ← BitVec.toNat_inj (y := (0 : Word)), and_op_toNat, and_above_op_toNat, and_high_half_toNat,
    and_text_mbz_toNat, BitVec.reduceToNat]
  omega

theorem writeCmd_of_illegal {s : State} {w : Word} (hidle : s.busy = false) (h : ∃ e, decode w = .error e) :
    s.writeCmd w = s.rejectIllegal w := by
  obtain ⟨e, hdec⟩ := h
  simp [State.writeCmd, hidle, hdec]

theorem writeCmd_of_legal {s : State} {w : Word} (hidle : s.busy = false) (h : LegalNat w.toNat) :
    s.writeCmd w = s.accept w := by
  rcases decode_total w with ⟨i, hdec⟩ | herror
  · simp [State.writeCmd, hidle, hdec]
  · exact absurd h ((decode_error_iff_nat w).1 herror)

/-- Settles O7: the illegal words are the complement of the legal ones, and an idle block rejects them. -/
theorem illegalWordIsRejectedAtTheWrite : Obligations.IllegalWordIsRejectedAtTheWrite := by
  refine fun w => ⟨?_, fun s hidle hillegal => writeCmd_of_illegal hidle hillegal⟩
  rw [decode_error_iff_nat, legalNat_iff_masks]
  simp only [not_and_or, not_lt, Classical.not_imp, ne_eq]

/-- Settles O8: the premises say that the word is legal, and `accept` writes these fields of the block. -/
theorem legalWordIsAccepted : Obligations.LegalWordIsAccepted := by
  intro s w hidle hop hfull hcnr htext
  have hlegal : LegalNat w.toNat := (legalNat_iff_masks w).2 ⟨hop, hfull, hcnr, htext⟩
  rw [State.writeReg, writeCmd_of_legal hidle hlegal]
  rfl

end Sys2Proof.Machine
end

-- The host's `WAIT` (30_encoding.md R83, 70_reset_and_hazards.md R227).
section

namespace Sys2Proof.Machine

/-- A poll that finds BUSY 1 gives the host STATUS and is still to be done again (R83). -/
theorem step_poll_busy {s : State} {rest : List HostOp} (hbusy : s.busy = true) (hwait : 0 < s.wait)
    (hhost : s.host = .wait :: rest) : step s = .next (s.tick.giveWord (s.readReg .status)) := by
  have hword : (s.tick.setHost rest).readReg .status = s.readReg .status := readReg_congr s _ rfl rfl _
  have hagain : (s.tick.setHost rest).setHost (.wait :: rest) = s.tick := by rw [← hhost]; rfl
  rw [step_host s _ rest (.inr hwait) hhost]
  simp only [State.perform, State.poll, State.setHost_busy, State.tick_busy, hbusy, if_true, State.setHost_host, hagain,
    hword]

/-- A poll that finds BUSY 0 gives the host STATUS and is the last (R83). -/
theorem step_poll_idle {s : State} {rest : List HostOp} (hidle : s.busy = false) (hhost : s.host = .wait :: rest) :
    step s = .next ((s.tick.setHost rest).giveWord (s.readReg .status)) := by
  have hword : (s.tick.setHost rest).readReg .status = s.readReg .status := readReg_congr s _ rfl rfl _
  rw [step_host s _ rest (.inl hidle) hhost]
  simp [State.perform, State.poll, hidle, hword]

/-- The state in which the completion step is due, after a `WAIT` has polled STATUS once for each step left to wait. -/
def State.polled (s : State) : State :=
  { s with wait := 0, returned := List.replicate s.wait (s.readReg .status) ++ s.returned }

/-- Where no step is left to wait, nothing has been polled. -/
theorem polled_of_wait_zero {s : State} (hwait : s.wait = 0) : s.polled = s := by
  cases s
  cases hwait
  rfl

/-- One poll more, and the state that all the polls lead to is the same: none of them changes STATUS. -/
theorem polled_poll {s : State} (hwait : 0 < s.wait) :
    (s.tick.giveWord (s.readReg .status)).polled = s.polled := by
  have hword : (s.tick.giveWord (s.readReg .status)).readReg .status = s.readReg .status :=
    readReg_congr s _ rfl rfl _
  have hlist : List.replicate (s.wait - 1) (s.readReg .status) ++ s.readReg .status :: s.returned =
      List.replicate s.wait (s.readReg .status) ++ s.returned := by
    rw [List.append_cons, ← List.replicate_succ', Nat.sub_add_cancel hwait]
  simp only [State.polled, hword, State.giveWord_wait, State.tick_wait, State.giveWord_returned, State.tick_returned,
    hlist]
  rfl

/-- While a command waits for its completion step, `WAIT` is all that the host does. -/
theorem run_polls (n k : Nat) (s : State) (rest : List HostOp) (hbusy : s.busy = true) (hwait : s.wait = n)
    (hhost : s.host = .wait :: rest) : core.run (n + k) s = core.run k s.polled := by
  induction n generalizing s with
  | zero => rw [polled_of_wait_zero hwait, Nat.zero_add]
  | succ n ih =>
    have hpos : 0 < s.wait := by omega
    calc core.run (n + 1 + k) s
        = core.run (n + k) (s.tick.giveWord (s.readReg .status)) := by
          rw [Nat.add_right_comm]
          exact run_succ _ s _ (step_poll_busy hbusy hpos hhost)
      _ = core.run k (s.tick.giveWord (s.readReg .status)).polled := ih _ hbusy (by simp [hwait]) hhost
      _ = core.run k s.polled := by rw [polled_poll hpos]

/-- A completion step ends the command, and the host's operations and the words it was given are as before (R30). -/
theorem exec_host_returned (i : Instr) (s : State) :
    ∃ t, exec i s = .next t ∧ t.host = s.host ∧ t.returned = s.returned ∧ t.busy = false ∧ t.done = true := by
  obtain ⟨text, result, desc, err, hexec, _⟩ := exec_spec i s
  exact ⟨_, hexec, rfl, rfl, rfl, rfl⟩

/-- Settles O59: the polls lead to the completion step, after which the last poll finds BUSY 0. -/
theorem waitEndsWithDone : Obligations.WaitEndsWithDone := by
  intro s i rest hbusy hdec hhost
  have hstatus : ∀ s : State, s.readReg .status = s.statusWord := fun s => readReg_of_not_isOutput s .status rfl
  obtain ⟨t, hexec, hthost, hreturned, hidle, hdone⟩ := exec_host_returned i s.polled
  have hcompletion : step s.polled = .next t := by
    rw [step_due s.polled hbusy rfl, completionStep_ok s.polled i hdec, hexec]
  have hlast : core.run 1 t = .next ((t.tick.setHost rest).giveWord (t.readReg .status)) :=
    (run_one t).trans (step_poll_idle hidle (hthost.trans hhost))
  have hrun : core.run (s.wait + 2) s = .next ((t.tick.setHost rest).giveWord (t.readReg .status)) :=
    calc core.run (s.wait + 2) s
        = core.run 2 s.polled := run_polls s.wait 2 s rest hbusy rfl hhost
      _ = core.run 1 t := run_succ 1 s.polled t hcompletion
      _ = _ := hlast
  refine ⟨by rw [hstatus, s.statusWord_busy, hbusy], _, t.readReg .status, hrun, rfl, hidle, hdone,
    congrArg (List.cons _) hreturned, ?_, ?_⟩
  · rw [hstatus, t.statusWord_busy, hidle]
  · rw [hstatus, t.statusWord_done, hdone]

end Sys2Proof.Machine
end

-- NOP (40_math.md R100).
section

namespace Sys2Proof.Machine

theorem word_ne_zero_iff (w : Word) : w ≠ 0 ↔ 0 < w.toNat := by
  rw [BitVec.toNat_ne, Nat.pos_iff_ne_zero]
  rfl

/-- Settles O22: a word with OP 0 is legal only below 16, and the one such word is 0. -/
theorem nopCompletes : Obligations.NopCompletes := by
  refine ⟨fun w => ⟨(decode_ok_iff_encode w .nop).trans eq_comm, fun hop hne => ?_⟩, fun s => rfl⟩
  rw [decode_error_iff_nat]
  rintro ⟨_, hfull, _⟩
  have hlow : w.toNat % 16 = 0 := by rw [← and_op_toNat, hop]; rfl
  have hpos := (word_ne_zero_iff w).1 hne
  omega

end Sys2Proof.Machine
end

-- LOG10 (40_math.md R101 to R103).
section

namespace Sys2Proof.Machine

theorem u32_natCast (n : Nat) : u32 (n : Int) = BitVec.ofNat 32 n := BitVec.ofInt_natCast 32 n

theorem u32_natCast_toNat {n : Nat} (h : n < 2 ^ 32) : (u32 (n : Int)).toNat = n := by
  rw [u32_natCast, BitVec.toNat_ofNat, Nat.mod_eq_of_lt h]

theorem log10fx_toNat (t : WfTables) (v : Nat) : (u32 (log10fx t.val v : Int)).toNat = log10fx t.val v :=
  u32_natCast_toNat ((log10fx_le t v).trans_lt (by decide))

/-- LOG10 of a positive value ends without an error (R102). -/
theorem exec_log10_pos (s : State) (h : s.latch.arg.arg0 ≠ 0) :
    exec .log10 s = .next ((s.putOutcome (u32 (log10fx s.tables.val s.latch.arg.arg0.toNat))
      (descLog10 (exponent s.latch.arg.arg0.toNat) (mantissa s.latch.arg.arg0.toNat))).endCommand errOk) := by
  have hpos : ¬ s.latch.arg.arg0.toNat = 0 := ((word_ne_zero_iff _).1 h).ne'
  simp [exec, execLog10, State.operand0, hpos]

theorem descLog10_eq_ofNat {e n : Nat} (he : e < 256) (hn : n < 256) :
    descLog10 e n = BitVec.ofNat 32 (256 * e + n) := by
  rw [← BitVec.toNat_inj, descLog10_toNat, BitVec.toNat_ofNat]
  omega

/-- Settles O23: the exponent and the mantissa are determined by the two premises on the number of divisions. -/
theorem log10Completes : Obligations.Log10Completes := by
  refine ⟨fun w => (decode_ok_iff_encode w .log10).trans eq_comm, exec_log10_zero, fun s e hne hle hleast => ?_⟩
  obtain ⟨hexp, hmant⟩ := exponent_unique _ e s.latch.arg.arg0.isLt hle hleast
  have hexp8 := exponent_le s.latch.arg.arg0.toNat
  rw [exec_log10_pos s hne, log10fx, hexp, hmant, u32_natCast, descLog10_eq_ofNat (by omega) (by omega)]
  rfl

/-! ### The bounds of the result -/

theorem descLog10_fields {e n : Nat} (he : e < 256) (hn : n < 256) :
    ((descLog10 e n).extractLsb' 0 8).toNat = n ∧ ((descLog10 e n).extractLsb' 8 8).toNat = e := by
  simp only [field_toNat, descLog10_toNat]
  omega

/-- Only the last entry of the default table reaches 2000 (R32). -/
theorem lut_lt_of_log10Default {t : Tables} (h : t.log10 = log10Default) {x : Nat} (hx : x < 100) :
    lut t x < 2000 := by
  have hentry : ∀ y < 99, (log10Default[y]?).getD 0 < 2000 := by decide
  rw [lut, h]
  exact hentry (x - 1) (by omega)

/-- After eight divisions the quotient of a 32-bit value is at most 42, whose default entry is below 2000 (R32, R102). -/
theorem log10fx_lt_of_log10Default {t : WfTables} (h : t.val.log10 = log10Default) {v : Nat} (hv : v < 2 ^ 32) :
    log10fx t.val v < 10000 := by
  have hexp := exponent_le v
  have hlut := lut_le t (mantissa v)
  unfold log10fx
  by_cases h8 : exponent v = 8
  · have hmant : mantissa v = v / 10 ^ exponent v := (normalise_spec 8 v).1
    have hlt : lut t.val (mantissa v) < 2000 := lut_lt_of_log10Default h (by rw [hmant, h8]; omega)
    omega
  · omega

/-- Settles O24, by the bounds of the exponent, the mantissa and the table's entries. -/
theorem log10ResultIsBounded : Obligations.Log10ResultIsBounded := by
  intro s hne
  have hlt := s.latch.arg.arg0.isLt
  have hpos := (word_ne_zero_iff _).1 hne
  refine ⟨_, exec_log10_pos s hne, rfl, ?_⟩
  simp only [State.endCommand_result, State.endCommand_desc, State.putOutcome_result, State.putOutcome_desc]
  generalize s.latch.arg.arg0.toNat = v at hlt hpos
  have hexp := exponent_le v
  have hmant := mantissa_le v hlt
  obtain ⟨hfield0, hfield8⟩ := descLog10_fields (e := exponent v) (n := mantissa v) (by omega) (by omega)
  rw [log10fx_toNat, hfield0, hfield8]
  exact ⟨log10fx_le _ v, fun hdefault => log10fx_lt_of_log10Default hdefault hlt, mantissa_pos v hpos, hmant, hexp⟩

/-! ### Monotonicity, and the values with no division -/

/-- The table is non-decreasing (R103). -/
def LutRises (t : Tables) : Prop :=
  ∀ x y : Nat, x ≤ y → y < 100 → (t.log10[x]?).getD 0 ≤ (t.log10[y]?).getD 0

theorem lut_mono {t : Tables} (ht : LutRises t) {x y : Nat} (h : x ≤ y) (hy : y ≤ 100) : lut t x ≤ lut t y :=
  ht (x - 1) (y - 1) (by omega) (by omega)

/-- With one exponent the mantissas and their entries are in order. With a larger exponent the entry is at least that of
10, which makes up for an entry of 2000 below it. -/
theorem log10fx_mono {t : WfTables} (ht : LutRises t.val) {v w : Nat} (hw : w < 2 ^ 32) (h : v ≤ w) :
    log10fx t.val v ≤ log10fx t.val w := by
  obtain ⟨hexp, hmant⟩ := normalise_mono v w hw h
  have hmax := mantissa_le w hw
  unfold log10fx
  rcases hexp.eq_or_lt with heq | hlt
  · have hlut := lut_mono ht (hmant heq) hmax
    omega
  · have hten : 1000 ≤ lut t.val (mantissa w) :=
      lut_ten t ▸ lut_mono ht (ten_le_mantissa w (by omega)) hmax
    have hlut := lut_le t (mantissa v)
    omega

theorem log10fx_of_le_hundred {t : Tables} {v : Nat} (h : v ≤ 100) : log10fx t v = lut t v := by
  obtain ⟨hexp, hmant⟩ := exponent_unique v 0 (by omega) (by simpa using h) (by simp)
  simp [log10fx, hexp, hmant]

theorem lut_listed (t : WfTables) {x : Nat} (h0 : 1 ≤ x) (h : x ≤ 100) :
    t.val.log10[x - 1]? = some (lut t.val x) := by
  obtain ⟨hlen, _⟩ := log10Wf_of t
  rw [lut, List.getElem?_eq_getElem (by omega)]
  rfl

/-- Settles O25: `log10fx` is non-decreasing, and on 1 to 100 it makes no division. -/
theorem log10FollowsTheTable : Obligations.Log10FollowsTheTable := by
  refine ⟨fun s s' htables hne hle hrises => ?_, fun s hpos hle => ?_⟩
  · have hne' : s'.latch.arg.arg0 ≠ 0 := (word_ne_zero_iff _).2 (((word_ne_zero_iff _).1 hne).trans_le hle)
    refine ⟨_, _, exec_log10_pos s hne, exec_log10_pos s' hne', ?_⟩
    simp only [State.endCommand_result, State.putOutcome_result, log10fx_toNat, htables]
    exact log10fx_mono hrises s'.latch.arg.arg0.isLt hle
  · refine ⟨_, _, exec_log10_pos s ((word_ne_zero_iff _).2 hpos), lut_listed s.tables hpos hle, ?_⟩
    simp only [State.endCommand_result, State.putOutcome_result, log10fx_toNat]
    exact log10fx_of_le_hundred hle

end Sys2Proof.Machine
end

-- BERSCALE (40_math.md R104 to R106).
section

namespace Sys2Proof.Machine

/-- The degenerate case (R105). -/
theorem exec_berscale_degenerate (s : State)
    (h : s.latch.arg.arg1 = 0 ∨ s.latch.arg.arg1.toNat ≤ s.latch.arg.arg0.toNat) :
    exec .berscale s = .next ((s.putOutcome 10000000 0x10).endCommand errOk) := by
  have hdegen : s.latch.arg.arg1.toNat = 0 ∨ s.latch.arg.arg1.toNat ≤ s.latch.arg.arg0.toNat :=
    h.imp_left fun hzero => by simp [hzero]
  simp only [exec, execBerscale, State.operand0, State.operand1, hdegen, if_true]
  rfl

theorem descBerscale_eq_ofNat {k : Nat} (hk : k ≤ 7) : descBerscale false k = BitVec.ofNat 32 k := by
  rw [← BitVec.toNat_inj, descBerscale_toNat, BitVec.toNat_ofNat, Bool.toNat_false]
  omega

/-- What the band loop answers, of `band` by name (R105). -/
theorem band_spec (err : Nat) :
    band err ≤ 7 ∧ (band err = 0 ∨ err < 215 * 10 ^ (7 - band err)) ∧
    ∀ j, band err < j → j ≤ 7 → 215 * 10 ^ (7 - j) ≤ err :=
  bandFrom_spec 7 err

theorem band_le (err : Nat) : band err ≤ 7 := (band_spec err).1

/-- The case that is not degenerate (R105). -/
theorem exec_berscale_scaled (s : State) (h : s.latch.arg.arg0.toNat < s.latch.arg.arg1.toNat) :
    exec .berscale s = .next ((s.putOutcome
      (BitVec.ofNat 32 (berScaled s.latch.arg.arg0.toNat s.latch.arg.arg1.toNat))
      (BitVec.ofNat 32 (band s.latch.arg.arg0.toNat))).endCommand errOk) := by
  have hscaled : ¬ (s.latch.arg.arg1.toNat = 0 ∨ s.latch.arg.arg1.toNat ≤ s.latch.arg.arg0.toNat) := by omega
  simp only [exec, execBerscale, State.operand0, State.operand1, if_neg hscaled, u32_natCast,
    descBerscale_eq_ofNat (band_le _), State.finish_eq]

/-- The band is the only one with the two properties of the loop (R105). -/
theorem band_unique {err k : Nat} (hk : k ≤ 7) (hpass : k = 0 ∨ err < 215 * 10 ^ (7 - k))
    (hlargest : ∀ j, k < j → j ≤ 7 → 215 * 10 ^ (7 - j) ≤ err) : band err = k := by
  obtain ⟨hle, hpass', hlargest'⟩ := band_spec err
  rcases Nat.lt_trichotomy (band err) k with hlt | heq | hgt
  · have hfail := hlargest' k hlt hk
    omega
  · exact heq
  · have hfail := hlargest (band err) hgt hle
    omega

/-- Settles O26: the band is determined by the two premises on it. -/
theorem berscaleCompletes : Obligations.BerscaleCompletes := by
  refine ⟨fun w => (decode_ok_iff_encode w .berscale).trans eq_comm, exec_berscale_degenerate,
    fun s k hlt hk hpass hlargest => ?_⟩
  rw [exec_berscale_scaled s hlt, berScaled, band_unique hk hpass hlargest]
  rfl

/-! ### No overflow -/

/-- The band's test bounds the product by 215 * 10^7, and band 0 multiplies by 1 (R104). -/
theorem mul_pow_band_lt {err : Nat} (herr : err < 2 ^ 32) : err * 10 ^ band err < 2 ^ 32 := by
  obtain ⟨hle, hpass, _⟩ := band_spec err
  rcases hpass with hzero | hpass
  · simpa [hzero] using herr
  · calc err * 10 ^ band err
        < 215 * 10 ^ (7 - band err) * 10 ^ band err := Nat.mul_lt_mul_of_pos_right hpass (by positivity)
      _ = 215 * 10 ^ 7 := by rw [Nat.mul_assoc, ← Nat.pow_add, Nat.sub_add_cancel hle]
      _ < 2 ^ 32 := by decide

/-- The quotient is below `10^k` because the errors are below the total (R105). -/
theorem berScaled_lt {err tot : Nat} (h : err < tot) : berScaled err tot < 10 ^ 7 := by
  have hquot : err * 10 ^ band err / tot < 10 ^ band err :=
    Nat.div_lt_of_lt_mul (Nat.mul_lt_mul_of_pos_right h (by positivity))
  calc berScaled err tot
      < 10 ^ band err * 10 ^ (7 - band err) := Nat.mul_lt_mul_of_pos_right hquot (by positivity)
    _ = 10 ^ 7 := by rw [← Nat.pow_add, Nat.add_sub_cancel' (band_le err)]

/-- Where BERSCALE is not degenerate, RESULT and DESC as numbers are the scaled quotient and the band. -/
theorem berscale_outcome_toNat {err tot : Nat} (h : err < tot) :
    (BitVec.ofNat 32 (berScaled err tot)).toNat = berScaled err tot ∧ (BitVec.ofNat 32 (band err)).toNat = band err := by
  have hresult := berScaled_lt h
  have hband := band_le err
  simp only [BitVec.toNat_ofNat]
  omega

/-- Settles O27, by the bounds of the product and of the scaled quotient. -/
theorem berscaleNeverOverflows : Obligations.BerscaleNeverOverflows := by
  intro s hlt
  obtain ⟨hresult, hdesc⟩ := berscale_outcome_toNat hlt
  refine ⟨_, exec_berscale_scaled s hlt, ?_⟩
  simp only [State.endCommand_result, State.endCommand_desc, State.putOutcome_result, State.putOutcome_desc, hresult,
    hdesc]
  exact ⟨band_le _, berScaled_lt hlt, mul_pow_band_lt s.latch.arg.arg0.isLt⟩

/-! ### Monotonicity within a band -/

theorem berScaled_mono {err err' tot : Nat} (hband : band err = band err') (h : err ≤ err') :
    berScaled err tot ≤ berScaled err' tot := by
  unfold berScaled
  rw [hband]
  gcongr

/-- Settles O28: equal descriptors are equal bands, and the two points are in bands 6 and 5. -/
theorem berscaleIsMonotoneWithinABand : Obligations.BerscaleIsMonotoneWithinABand := by
  refine ⟨fun s s' t t' htotal hle hlt' hexec hexec' hdesc => ?_, fun s herr htotal => ?_, fun s herr htotal => ?_⟩
  · have hlt : s.latch.arg.arg0.toNat < s.latch.arg.arg1.toNat := htotal ▸ hle.trans_lt hlt'
    obtain ⟨hresult, hband⟩ := berscale_outcome_toNat hlt
    obtain ⟨hresult', hband'⟩ := berscale_outcome_toNat hlt'
    rw [exec_berscale_scaled s hlt, Host.Outcome.next.injEq] at hexec
    rw [exec_berscale_scaled s' hlt', Host.Outcome.next.injEq] at hexec'
    subst hexec hexec'
    have hsame : band s.latch.arg.arg0.toNat = band s'.latch.arg.arg0.toNat := by
      rw [← hband, ← hband']
      exact congrArg BitVec.toNat hdesc
    simp only [State.endCommand_result, State.putOutcome_result, hresult, hresult']
    rw [htotal]
    exact berScaled_mono hsame hle
  · refine ⟨_, exec_berscale_scaled s (by simp [herr, htotal]), ?_⟩
    simp only [State.endCommand_result, State.putOutcome_result, herr, htotal]
    decide
  · refine ⟨_, exec_berscale_scaled s (by simp [herr, htotal]), ?_⟩
    simp only [State.endCommand_result, State.putOutcome_result, herr, htotal]
    decide

end Sys2Proof.Machine
end

-- BERSCORE, CNRREL and SQI (41_sqi.md R121 to R131).
section

namespace Sys2Proof.Machine

theorem word_toNat_eq_zero_iff (w : Word) : w.toNat = 0 ↔ w = 0 := BitVec.toNat_inj (y := 0#32)

/-- A number that the width holds is kept by the wrap (R8). -/
theorem ofInt_toNat {n : Nat} {v : Int} (h0 : 0 ≤ v) (h : v < ((2 ^ n : Nat) : Int)) :
    (BitVec.ofInt n v).toNat = v.toNat := by
  rw [BitVec.toNat_ofInt, Int.emod_eq_of_lt h0 h]

/-! ### The inverse error ratio and its score -/

/-- `beri` of two operand words, in the words (R122). -/
theorem beri_toNat (errors total : Word) :
    beri errors.toNat total.toNat = if errors = 0 then 100000000 else total.toNat / errors.toNat := by
  simp only [beri, word_toNat_eq_zero_iff]

theorem berScore_low {t : Tables} {b : Nat} (h : b < 1000) : berScore t b = 0 := if_pos h

theorem berScore_high {t : Tables} {b : Nat} (h : 10000000 ≤ b) : berScore t b = 100 := by
  rw [berScore, if_neg (by omega), if_pos h]

/-- The third arm of the score (R123). -/
theorem berScore_middle {t : Tables} {b : Nat} (h1 : 1000 ≤ b) (h2 : b < 10000000) :
    berScore t b = (20 * (log10fx t b : Int) - 40000).tdiv 1000 := by
  rw [berScore, if_neg (by omega), if_neg (by omega)]

/-- Settles O29: the two premises on the number of divisions determine `log10fx`. -/
theorem berScoreFollowsTheLogarithm : Obligations.BerScoreFollowsTheLogarithm := by
  refine fun t b e => ⟨berScore_low, berScore_high, fun h1 h2 hle hleast => ?_⟩
  obtain ⟨hexp, hmant⟩ := exponent_unique b e (by omega) hle hleast
  rw [berScore_middle h1 h2, log10fx, hexp, hmant, lut]
  push_cast
  rfl

/-- The score as a word and as the byte BSCORE (R123, R124). -/
theorem berScore_toNat (t : WfTables) (b : Nat) :
    (u32 (berScore t.val b)).toNat = (berScore t.val b).toNat ∧
    (BitVec.ofInt 8 (berScore t.val b)).toNat = (berScore t.val b).toNat := by
  obtain ⟨h0, h100⟩ := berScore_range t b
  exact ⟨ofInt_toNat h0 (by omega), ofInt_toNat h0 (by omega)⟩

/-! ### The descriptor -/

theorem getLsbD_eq_of_toNat {w : Word} {i : Nat} {b : Bool} (h : w.toNat / 2 ^ i % 2 = b.toNat) :
    w.getLsbD i = b := by
  rw [bit_eq, h]
  cases b <;> rfl

/-- The descriptor of the quality commands field by field (R37). -/
theorem descQuality_fields (bscore : BitVec 8) (high low zero margin floor noref : Bool) :
    let d := descQuality bscore high low zero margin floor noref
    d.getLsbD 0 = noref ∧ d.getLsbD 1 = floor ∧ d.getLsbD 2 = margin ∧ d.getLsbD 3 = zero ∧ d.getLsbD 4 = low ∧
      d.getLsbD 5 = high ∧ d.extractLsb' 6 2 = 0 ∧ d.extractLsb' 8 8 = bscore ∧ d.extractLsb' 16 16 = 0 := by
  intro d
  have hd : d.toNat = _ := descQuality_toNat bscore high low zero margin floor noref
  have hnoref := Bool.toNat_le noref
  have hfloor := Bool.toNat_le floor
  have hmargin := Bool.toNat_le margin
  have hzero := Bool.toNat_le zero
  have hlow := Bool.toNat_le low
  have hhigh := Bool.toNat_le high
  have hbscore := bscore.isLt
  refine ⟨getLsbD_eq_of_toNat ?_, getLsbD_eq_of_toNat ?_, getLsbD_eq_of_toNat ?_, getLsbD_eq_of_toNat ?_,
    getLsbD_eq_of_toNat ?_, getLsbD_eq_of_toNat ?_, ?_, ?_, ?_⟩
  iterate 6 omega
  all_goals
    simp only [← BitVec.toNat_inj, field_toNat, BitVec.reduceToNat]
    omega

/-- The fields of the descriptor that BERSCORE and SQI give the ratio of two operand words (R124, R130). -/
theorem descScore_fields (t : WfTables) (b : Nat) (errors : Word) (margin : Bool) :
    let d := descScore (berScore t.val b) b errors.toNat margin
    d.getLsbD 0 = false ∧ d.getLsbD 1 = false ∧ d.getLsbD 2 = margin ∧ d.getLsbD 3 = decide (errors = 0) ∧
      d.getLsbD 4 = decide (b < 1000) ∧ d.getLsbD 5 = decide (10000000 ≤ b) ∧ d.extractLsb' 6 2 = 0 ∧
      (d.extractLsb' 8 8).toNat = (berScore t.val b).toNat ∧ d.extractLsb' 16 16 = 0 := by
  obtain ⟨h0, h1, h2, h3, h4, h5, h6, hbscore, h16⟩ := descQuality_fields (BitVec.ofInt 8 (berScore t.val b))
    (decide (10000000 ≤ b)) (decide (b < 1000)) (decide (errors.toNat = 0)) margin false false
  exact ⟨h0, h1, h2, h3.trans (decide_eq_decide.2 (word_toNat_eq_zero_iff errors)), h4, h5, h6,
    hbscore ▸ (berScore_toNat t b).2, h16⟩

/-! ### BERSCORE -/

theorem exec_berscore (s : State) {b : Nat} (hb : beri s.latch.arg.arg0.toNat s.latch.arg.arg1.toNat = b) :
    exec .berscore s = .next ((s.putOutcome (u32 (berScore s.tables.val b))
      (descScore (berScore s.tables.val b) b s.latch.arg.arg0.toNat false)).endCommand errOk) := by
  subst hb
  rfl

/-- Settles O30: the descriptor is that of the score, with MARGIN 0. -/
theorem berscoreCompletes : Obligations.BerscoreCompletes := by
  refine ⟨fun w => (decode_ok_iff_encode w .berscore).trans eq_comm, fun s b hb => ?_⟩
  have hberi := (beri_toNat s.latch.arg.arg0 s.latch.arg.arg1).trans hb.symm
  exact ⟨_, exec_berscore s hberi, descScore_fields s.tables b s.latch.arg.arg0 false⟩

/-- From 10 up the entries of the default table are at least 1000 (R32). -/
theorem le_lut_of_log10Default {t : Tables} (h : t.log10 = log10Default) {x : Nat} (h10 : 10 ≤ x) (hx : x ≤ 100) :
    1000 ≤ lut t x := by
  have hentry : ∀ y < 100, 9 ≤ y → 1000 ≤ (log10Default[y]?).getD 0 := by decide
  rw [lut, h]
  exact hentry (x - 1) (by omega) (by omega)

/-- With the default table the logarithm in the third arm is at least 3000: a value above 100 is divided, and after one
division only the quotient 100 comes from 1000 or more (R123). -/
theorem le_log10fx_of_log10Default {t : WfTables} (h : t.val.log10 = log10Default) {b : Nat} (h1 : 1000 ≤ b)
    (h2 : b < 10000000) : 3000 ≤ log10fx t.val b := by
  have hle : mantissa b ≤ 100 := mantissa_le b (by omega)
  have hmant : mantissa b = b / 10 ^ exponent b := (normalise_spec 8 b).1
  unfold log10fx
  rcases Nat.lt_or_ge (exponent b) 2 with hlt | hge
  · have hexp : exponent b = 1 := by
      by_contra hne
      rw [show exponent b = 0 by omega] at hmant
      omega
    rw [hexp] at hmant ⊢
    rw [show mantissa b = 100 by omega, lut_hundred]
  · have hlut := le_lut_of_log10Default h (ten_le_mantissa b (by omega)) hle
    omega

/-- With the default table a score is 0 or at least 20 (R131). -/
theorem berScore_of_log10Default {t : WfTables} (h : t.val.log10 = log10Default) (b : Nat) :
    berScore t.val b = 0 ∨ 20 ≤ berScore t.val b := by
  rcases Nat.lt_or_ge b 1000 with hlow | h1
  · exact .inl (berScore_low hlow)
  · right
    rcases Nat.lt_or_ge b 10000000 with h2 | hhigh
    · have hlog := le_log10fx_of_log10Default h h1 h2
      rw [berScore_middle h1 h2, Int.tdiv_eq_ediv_of_nonneg (by omega)]
      omega
    · rw [berScore_high hhigh]
      decide

/-- Settles O31: RESULT is the score as a number, in the score's range. -/
theorem berscoreRange : Obligations.BerscoreRange := by
  intro s
  refine ⟨_, exec_berscore s rfl, ?_⟩
  simp only [State.endCommand_result, State.putOutcome_result, berScore_toNat]
  generalize beri s.latch.arg.arg0.toNat s.latch.arg.arg1.toNat = b
  obtain ⟨h0, h100⟩ := berScore_range s.tables b
  refine ⟨by omega, fun hdefault => ?_⟩
  have hscore := berScore_of_log10Default hdefault b
  omega

/-! ### The relative CNR and CNRREL -/

/-- The two wraps of R121 are one, and the signed reading is the balanced remainder. -/
theorem cnrRel_eq_bmod (t : Tables) (std mod cr : BitVec 4) (cnrInt cnrDec : Word) :
    cnrRel t std mod cr cnrInt cnrDec =
      ((cnrInt.toNat : Int) * 100 + cnrDec.toNat - req t std mod cr).bmod (2 ^ 32) := by
  have hsum : ((u32 ((cnrInt.toNat : Int) * 100 + cnrDec.toNat)).toNat : Int) =
      ((cnrInt.toNat : Int) * 100 + cnrDec.toNat) % ((2 ^ 32 : Nat) : Int) := by
    rw [u32, BitVec.toNat_ofInt, Int.toNat_of_nonneg (Int.emod_nonneg _ (by decide))]
  rw [cnrRel, hsum, s32, u32, BitVec.toInt_ofInt, Int.emod_sub_bmod]

/-- Settles O33: the balanced remainder is congruent and in the signed range. -/
theorem relativeCnrIsTheSignedWrap : Obligations.RelativeCnrIsTheSignedWrap := by
  intro t std mod cr cnrInt cnrDec
  rw [cnrRel_eq_bmod]
  exact ⟨Int.bmod_emod, Int.le_bmod (by decide), Int.bmod_lt (by decide)⟩

theorem descNoRef_eq : descNoRef = 1 := rfl

/-- The descriptor of CNRREL, and of SQI below the floor: MARGIN and FLOOR alone (R127, R130). -/
theorem descQuality_margin_floor (margin floor : Prop) [Decidable margin] [Decidable floor] :
    descQuality 0 false false false (decide margin) (decide floor) false =
      (if margin then 4 else 0) ||| (if floor then 2 else 0) := by
  by_cases hmargin : margin <;> by_cases hfloor : floor <;> simp only [hmargin, hfloor] <;> rfl

theorem exec_cnrrel_noRef (s : State) {std mod cr : BitVec 4} (h : hasRef s.tables.val std mod cr = false) :
    exec (.cnrrel std mod cr) s = .next ((s.putOutcome 0 1).endCommand errOk) := by
  simp only [exec, execCnrrel, h, Bool.false_eq_true, if_false, descNoRef_eq, State.finish_eq]

theorem exec_cnrrel_ref (s : State) {std mod cr : BitVec 4} (h : hasRef s.tables.val std mod cr = true) {rel : Int}
    (hrel : rel = cnrRel s.tables.val std mod cr s.latch.arg.arg0 s.latch.arg.arg1) :
    exec (.cnrrel std mod cr) s = .next ((s.putOutcome (u32 rel)
      ((if 300 < rel then 4 else 0) ||| (if rel < -700 then 2 else 0))).endCommand errOk) := by
  subst hrel
  rw [← descQuality_margin_floor]
  simp only [exec, execCnrrel, h, if_true]
  rfl

/-- Settles O34, with and without a reference. -/
theorem cnrrelCompletes : Obligations.CnrrelCompletes :=
  fun s _ _ _ _ hrel => ⟨exec_cnrrel_noRef s, fun href => exec_cnrrel_ref s href hrel⟩

/-! ### SQI -/

theorem exec_sqi_noRef (s : State) {std mod cr : BitVec 4} (h : hasRef s.tables.val std mod cr = false) :
    exec (.sqi std mod cr) s = .next ((s.putOutcome 0 1).endCommand errOk) := by
  simp only [exec, execSqi, h, Bool.false_eq_true, if_false, descNoRef_eq, State.finish_eq]

theorem exec_sqi_floor (s : State) {std mod cr : BitVec 4} (h : hasRef s.tables.val std mod cr = true)
    (hfloor : cnrRel s.tables.val std mod cr s.latch.arg.arg0 s.latch.arg.arg1 < -700) :
    exec (.sqi std mod cr) s = .next ((s.putOutcome 0 2).endCommand errOk) := by
  simp only [exec, execSqi, State.operand0, State.operand1, h, hfloor, if_true]
  rfl

/-- The full path of SQI (R130). -/
theorem exec_sqi_scored (s : State) {std mod cr : BitVec 4} (h : hasRef s.tables.val std mod cr = true) {rel : Int}
    (hrel : rel = cnrRel s.tables.val std mod cr s.latch.arg.arg0 s.latch.arg.arg1) (hfloor : -700 ≤ rel) {b : Nat}
    (hb : beri s.latch.arg.arg2.toNat s.latch.arg.arg3.toNat = b) :
    exec (.sqi std mod cr) s = .next ((s.putOutcome (u32 (combine rel (berScore s.tables.val b)))
      (descScore (berScore s.tables.val b) b s.latch.arg.arg2.toNat (decide (300 < rel)))).endCommand errOk) := by
  subst hrel hb
  simp only [exec, execSqi, State.operand0, State.operand1, h, if_true, Int.not_lt.2 hfloor, if_false]
  rfl

/-- Settles O35, path by path. -/
theorem sqiCompletes : Obligations.SqiCompletes := by
  intro s std mod cr rel hrel
  refine ⟨exec_sqi_noRef s, fun href hfloor => exec_sqi_floor s href (hrel ▸ hfloor), ?_⟩
  rintro _ b href hfloor hb rfl
  have hberi := (beri_toNat s.latch.arg.arg2 s.latch.arg.arg3).trans hb.symm
  exact ⟨_, exec_sqi_scored s href hrel hfloor hberi,
    descScore_fields s.tables b s.latch.arg.arg2 (decide (300 < rel))⟩

/-- On the full path RESULT is 0 to 100 (R125, R131). -/
theorem combine_berScore_toNat_le (t : WfTables) (b : Nat) {rel : Int} (h : -700 ≤ rel) :
    (u32 (combine rel (berScore t.val b))).toNat ≤ 100 := by
  obtain ⟨hscore0, hscore⟩ := berScore_range t b
  obtain ⟨h0, hle⟩ := combine_range rel _ h hscore0 hscore
  rw [u32, ofInt_toNat h0 (by omega)]
  omega

/-- Settles O36: RESULT is 0 on the first two paths, and in range on the full path, which is not below the floor. -/
theorem sqiIsAlwaysZeroToOneHundred : Obligations.SqiIsAlwaysZeroToOneHundred := by
  intro s std mod cr
  rcases href : hasRef s.tables.val std mod cr with _ | _
  · exact ⟨_, exec_sqi_noRef s href, rfl, by simp, by simp⟩
  · rcases lt_or_ge (cnrRel s.tables.val std mod cr s.latch.arg.arg0 s.latch.arg.arg1) (-700) with hlt | hge
    · exact ⟨_, exec_sqi_floor s href hlt, rfl, by simp, fun _ _ => rfl⟩
    · exact ⟨_, exec_sqi_scored s href rfl hge rfl, rfl, combine_berScore_toNat_le s.tables _ hge,
        fun _ hlt => absurd hlt (Int.not_lt.2 hge)⟩

end Sys2Proof.Machine
end

-- The decoder table and the entry of a standard and an id (42_dispatch.md R150, R151).
section

namespace Sys2Proof.Machine

/-- From the shared-info boundary on, the standard selects the decoder table (R150). -/
theorem classOf_of_commonEnd_le {d : DispatchTables} {std : BitVec 4} {id : BitVec 9}
    (h : commonEnd d std ≤ id.toNat) :
    classOf d std id =
      if std = 1 then .dvbt
      else if std = 2 then .dvbt2
      else if std = 3 then .dvbc
      else if std = 4 then .isdbt
      else if std = 5 then .isdbs
      else .generic := by
  rw [classOf, if_neg (Nat.not_lt.2 h)]
  clear h
  revert std
  decide

/-- Settles O37: below the boundary the common table, and from it on the table of the standard. -/
theorem decoderClassSelection : Obligations.DecoderClassSelection := by
  refine fun d std id bound => ⟨rfl, rfl, rfl, rfl, rfl, rfl, rfl, fun hbound => ?_⟩
  have hend : commonEnd d std = bound := by simp [commonEnd, hbound]
  split
  case isTrue hlt => exact if_pos (hend ▸ hlt)
  case isFalse hle => exact classOf_of_commonEnd_le (hend ▸ Nat.not_lt.1 hle)

/-- What a well-formed configuration says of the rows of `INFO` and of the number of text lists (R6). -/
theorem dispatchWf_of (t : WfTables) :
    (∀ r ∈ t.val.dispatch.info, r.entry.wf t.val.dispatch.textLists.length = true) ∧
      t.val.dispatch.textLists.length ≤ 256 := by
  have h := t.property
  simp only [Tables.wf, DispatchTables.wf, Bool.and_eq_true, decide_eq_true_eq, List.all_eq_true] at h
  obtain ⟨-, ⟨⟨-, hinfo⟩, hlists⟩, -⟩ := h
  exact ⟨fun r hr => (hinfo r hr).2, hlists⟩

/-- An entry that is not `NotDef` is that of a listed row (R35). -/
theorem exists_row_of_info_defined {d : DispatchTables} {cls : DecoderClass} {id : BitVec 9} {title : Text} {fmt : Fmt}
    (h : info d cls id = .defined title fmt) : ∃ r ∈ d.info, r.entry = .defined title fmt := by
  rw [info_eq_find?] at h
  rcases hfind : d.info.find? (rowIsOf cls id) with _ | r
  · simp [hfind] at h
  · exact ⟨r, List.mem_of_find?_eq_some hfind, by simpa [hfind] using h⟩

/-- A text list's number fits DESC.LIST (R6, R37). -/
theorem listNumber_lt {t : WfTables} {cls : DecoderClass} {id : BitVec 9} {title : Text} {l : Nat}
    (h : info t.val.dispatch cls id = .defined title (.list l)) : l < 256 := by
  obtain ⟨r, hr, hentry⟩ := exists_row_of_info_defined h
  obtain ⟨hrows, hlists⟩ := dispatchWf_of t
  have hwf := hrows r hr
  simp only [hentry, Entry.wf, Bool.and_eq_true, decide_eq_true_eq] at hwf
  omega

end Sys2Proof.Machine
end

-- The renderings of a value and the TEXT buffer (42_dispatch.md R153, R154, R156).
section

namespace Sys2Proof.Machine

/-- Settles O38, by the byte of the buffer and the lengths of the renderings. -/
theorem emitCutsAndZeroFills : Obligations.EmitCutsAndZeroFills := by
  refine ⟨fun t j => ⟨emit_get t j.val j.isLt, ?_⟩, fun v => ⟨?_, ?_, rfl⟩⟩
  · unfold emitLen
    split <;> omega
  · exact (decText_length v).2.trans (by decide)
  · exact (hexText_length v).2.trans (by decide)

/-- Bytes that stand for their digits read back as the number. -/
theorem digitBytes_value {base fuel v : Nat} (hb : 2 ≤ base) (value : Byte → Nat)
    (hvalue : ∀ d < base, value (digitByte d) = d) (h : v < base ^ fuel) :
    ((digits base fuel v).map digitByte).foldl (fun a b => base * a + value b) 0 = v := by
  rw [List.foldl_map]
  calc (digits base fuel v).foldl (fun a d => base * a + value (digitByte d)) 0
      = (digits base fuel v).foldl (fun a d => base * a + d) 0 :=
        List.foldl_ext _ _ _ fun a d hd => by rw [hvalue d (digits_lt base (by omega) fuel v d hd)]
    _ = v := digits_value base hb fuel v h

/-- Every byte of a rendering is that of a digit below the base. -/
theorem exists_digit_of_mem {base fuel v : Nat} (hb : 0 < base) {b : Byte}
    (h : b ∈ (digits base fuel v).map digitByte) : ∃ d < base, digitByte d = b := by
  obtain ⟨d, hd, hbyte⟩ := List.mem_map.1 h
  exact ⟨d, digits_lt base hb fuel v d hd, hbyte⟩

theorem digits_zero {base fuel : Nat} (hb : 0 < base) : digits base (fuel + 1) 0 = [0] := if_pos hb

/-- The byte `0` is that of the digit zero only. -/
theorem eq_zero_of_digitByte {d : Nat} (h : d < 16) (h0 : digitByte d = 0x30) : d = 0 := by
  have hbyte : 0x30 = _ := (congrArg BitVec.toNat h0).symm.trans (digitByte_toNat d h)
  split at hbyte <;> omega

/-- A rendering that starts with the byte `0` is that of zero. -/
theorem eq_zero_of_digitBytes_head {base fuel v : Nat} (hb : 2 ≤ base) (hb16 : base ≤ 16) (h : v < base ^ fuel)
    (h0 : ((digits base fuel v).map digitByte).head? = some 0x30) : v = 0 := by
  rw [List.head?_map, Option.map_eq_some_iff] at h0
  obtain ⟨d, hd, hbyte⟩ := h0
  have hlt := digits_lt base (by omega) fuel v d (List.mem_of_head? hd)
  rw [eq_zero_of_digitByte (by omega) hbyte] at hd
  exact digits_head base hb fuel v h hd

/-- The digits of a word in a base up to 16 hold no leading zero, and those of 0 are the one digit 0. -/
theorem digitBytes_leadingZero {base fuel : Nat} (hb : 2 ≤ base) (hb16 : base ≤ 16) {v : Word}
    (h : v.toNat < base ^ (fuel + 1)) :
    let ds := (digits base (fuel + 1) v.toNat).map digitByte
    (ds.head? = some 0x30 → v = 0 ∧ ds = [0x30]) ∧ (v = 0 → ds = [0x30]) := by
  intro ds
  have hzero : v = 0 → ds = [0x30] := by
    rintro rfl
    exact congrArg (List.map digitByte) (digits_zero (by omega))
  refine ⟨fun h0 => ?_, hzero⟩
  have hv : v = 0 := (word_toNat_eq_zero_iff v).1 (eq_zero_of_digitBytes_head hb hb16 h h0)
  exact ⟨hv, hzero hv⟩

/-- Settles O39: the bytes are those of the digits of the value, below 10. -/
theorem decimalTextReadsBack : Obligations.DecimalTextReadsBack := by
  intro v
  have hv : v.toNat < 10 ^ 10 := v.isLt.trans (by decide)
  have hbyte : ∀ d < 10, (digitByte d).toNat = 0x30 + d := fun d hd => by
    rw [digitByte_toNat d (by omega), if_pos hd]
  obtain ⟨hpos, hlen⟩ := decText_length v
  refine ⟨digitBytes_value (by decide) (fun b => b.toNat - 0x30) (fun d hd => ?_) hv, fun b hb => ?_, hpos, hlen,
    digitBytes_leadingZero (by decide) (by decide) hv⟩
  · simp only [hbyte d hd]
    omega
  · obtain ⟨d, hd, rfl⟩ := exists_digit_of_mem (by decide) hb
    have := hbyte d hd
    omega

/-- The value of an upper-case hexadecimal digit's byte (R154). -/
def hexValue (b : Byte) : Nat := if b.toNat < 0x41 then b.toNat - 0x30 else b.toNat - 0x41 + 10

theorem hexValue_digitByte (d : Nat) (h : d < 16) : hexValue (digitByte d) = d := by
  rw [hexValue, digitByte_toNat d h]
  split <;> split <;> omega

/-- Settles O40: after `0x` the bytes are those of the digits of the value, below 16. -/
theorem hexadecimalTextReadsBack : Obligations.HexadecimalTextReadsBack := by
  intro v
  have hv : v.toNat < 16 ^ 8 := v.isLt
  have hlen := digits_length 16 8 v.toNat (by decide)
  rw [← List.length_map (f := digitByte)] at hlen
  refine ⟨_, rfl, digitBytes_value (by decide) hexValue hexValue_digitByte hv, fun b hb => ?_, hlen.1, hlen.2,
    digitBytes_leadingZero (by decide) (by decide) hv⟩
  obtain ⟨d, hd, rfl⟩ := exists_digit_of_mem (by decide) hb
  rw [digitByte_toNat d hd]
  split <;> omega

end Sys2Proof.Machine
end

-- TITLE and VALUE (42_dispatch.md R151, R152, R155 to R162).
section

namespace Sys2Proof.Machine

theorem emitLen_notDefText : emitLen notDefText = 11 := rfl

theorem emitLen_of_le {t : Text} (h : t.length ≤ 63) : emitLen t = t.length := Nat.min_eq_left h

theorem emitLen_decText (v : Word) : emitLen (decText v) = (decText v).length :=
  emitLen_of_le ((decText_length v).2.trans (by decide))

theorem emitLen_hexText (v : Word) : emitLen (hexText v) = (hexText v).length :=
  emitLen_of_le ((hexText_length v).2.trans (by decide))

/-- A code inside the text list gives its string (R155). -/
theorem listText_listed {d : DispatchTables} {l raw : Nat} {strings : List Text} {t : Text}
    (hlist : d.textLists[l]? = some strings) (ht : strings[raw]? = some t) : listText d l raw = (t, false) := by
  simp [listText, hlist, ht]

/-- A code beyond the text list gives `Not Defined` and OOR (R155). -/
theorem listText_beyond {d : DispatchTables} {l raw : Nat} {strings : List Text}
    (hlist : d.textLists[l]? = some strings) (hraw : strings.length ≤ raw) : listText d l raw = (notDefText, true) := by
  simp [listText, hlist, List.getElem?_eq_none hraw]

/-! ### The descriptor -/

/-- The descriptor of a text as a number: the length of a kept text fits DESC.LEN (R37, R156). -/
theorem descText_eq_ofNat {ent : Entry} {t : Text} {cls : DecoderClass} {oor : Bool} {n : Nat}
    (h : (kind ent).toNat + 4 * oor.toNat + 16 * (classCode cls).toNat + 256 * emitLen t
      + 65536 * (listNo ent % 256) = n) :
    descText ent (emitLen t) cls oor = BitVec.ofNat 32 n := by
  have hlen : emitLen t % 256 = emitLen t := Nat.mod_eq_of_lt ((emitLen_le t).trans_lt (by decide))
  rw [← h, ← BitVec.toNat_inj, BitVec.toNat_ofNat, ← hlen, ← descText_toNat, hlen, Nat.mod_eq_of_lt (BitVec.isLt _)]

/-- DESC.KIND (R37, R157). -/
@[simp] theorem descText_kind (ent : Entry) (len : Nat) (cls : DecoderClass) (oor : Bool) :
    (descText ent len cls oor).extractLsb' 0 2 = kind ent := by
  have hkind := (kind ent).isLt
  rw [← BitVec.toNat_inj, field_toNat, descText_toNat]
  omega

/-- DESC.CLASS (R37, R157). -/
@[simp] theorem descText_class (ent : Entry) (len : Nat) (cls : DecoderClass) (oor : Bool) :
    (descText ent len cls oor).extractLsb' 4 3 = classCode cls := by
  have hkind := (kind ent).isLt
  have hclass := (classCode cls).isLt
  have hoor := Bool.toNat_le oor
  rw [← BitVec.toNat_inj, field_toNat, descText_toNat]
  omega

/-- DESC.LEN is the kept length, which fits it (R37, R156). -/
@[simp] theorem descText_len (ent : Entry) (t : Text) (cls : DecoderClass) (oor : Bool) :
    ((descText ent (emitLen t) cls oor).extractLsb' 8 8).toNat = emitLen t := by
  have hlen := emitLen_le t
  have hkind := (kind ent).isLt
  have hclass := (classCode cls).isLt
  have hoor := Bool.toNat_le oor
  rw [field_toNat, descText_toNat]
  omega

/-! ### The completion steps -/

/-- What TITLE leaves, for the entry of the class and the id (R158). -/
theorem exec_title (s : State) {std : BitVec 4} {id : BitVec 9} {cls : DecoderClass} {ent : Entry} {desc : Word}
    (hcls : cls = classOf s.tables.val.dispatch std id) (hent : info s.tables.val.dispatch cls id = ent)
    (hdesc : descText ent (emitLen (titleText ent)) cls false = desc) :
    exec (.title std id) s =
      .next (((s.putText (emit (titleText ent))).putOutcome 0 desc).endCommand errOk) := by
  subst hcls hent hdesc
  rfl

/-- What VALUE leaves, for the entry of the class and the id and the entry's rendering of the raw value (R160). -/
theorem exec_value (s : State) {std : BitVec 4} {id : BitVec 9} {cls : DecoderClass} {ent : Entry} {raw desc : Word}
    {t : Text} {oor : Bool} (hcls : cls = classOf s.tables.val.dispatch std id) (hraw : raw = s.latch.arg.arg0)
    (hent : info s.tables.val.dispatch cls id = ent) (htext : valueText s.tables.val.dispatch raw ent = (t, oor))
    (hdesc : descText ent (emitLen t) cls oor = desc) :
    exec (.value std id) s = .next (((s.putText (emit t)).putOutcome raw desc).endCommand errOk) := by
  obtain ⟨rfl, rfl⟩ := Prod.mk.inj htext
  subst hcls hraw hent hdesc
  rfl

/-- TITLE or VALUE leaves some text with the descriptor of the pair's entry and class, and that text is `Not Defined`
where there is no entry (R151, R152). -/
theorem exec_title_or_value (s : State) {std : BitVec 4} {id : BitVec 9} {i : Instr}
    (hi : i = .title std id ∨ i = .value std id) {cls : DecoderClass} {ent : Entry}
    (hcls : cls = classOf s.tables.val.dispatch std id) (hent : info s.tables.val.dispatch cls id = ent) :
    ∃ t result oor, exec i s = .next (((s.putText (emit t)).putOutcome result
      (descText ent (emitLen t) cls oor)).endCommand errOk) ∧ (ent = .notDef → t = notDefText) := by
  rcases hi with rfl | rfl
  · exact ⟨_, _, _, exec_title s hcls hent rfl, by rintro rfl; rfl⟩
  · exact ⟨_, _, _, exec_value s hcls rfl hent rfl rfl, by rintro rfl; rfl⟩

/-- Settles O41: the descriptor as a number, for no entry and in each format. -/
theorem titleCompletes : Obligations.TitleCompletes := by
  refine ⟨rfl, fun s std id cls hcls => ⟨fun hent => exec_title s hcls hent (descText_eq_ofNat ?_),
    fun title fmt hent => exec_title s hcls hent (descText_eq_ofNat ?_)⟩⟩
  · simp only [kind, listNo, titleText, emitLen_notDefText, Bool.toNat_false, BitVec.reduceToNat]
    omega
  · cases fmt <;> simp only [kind, listNo, titleText, Bool.toNat_false, BitVec.reduceToNat] <;> omega

/-- Settles O42: the rendering in each format, and the descriptor as a number. -/
theorem valueCompletes : Obligations.ValueCompletes := by
  intro s std id cls raw hcls hraw
  refine ⟨fun hent => exec_value s hcls hraw hent rfl (descText_eq_ofNat ?_),
    fun title hent => exec_value s hcls hraw hent rfl (descText_eq_ofNat ?_),
    fun title hent => exec_value s hcls hraw hent rfl (descText_eq_ofNat ?_),
    fun title l strings hent hlist => ?_⟩
  case refine_4 =>
    have hl := listNumber_lt hent
    refine ⟨fun t ht => exec_value s hcls hraw hent (listText_listed hlist ht) (descText_eq_ofNat ?_),
      fun hbeyond => exec_value s hcls hraw hent (listText_beyond hlist hbeyond) (descText_eq_ofNat ?_)⟩
    all_goals
      simp only [kind, listNo, emitLen_notDefText, Bool.toNat_false, Bool.toNat_true, BitVec.reduceToNat]
      omega
  all_goals
    simp only [kind, listNo, emitLen_notDefText, emitLen_decText, emitLen_hexText, Bool.toNat_false, BitVec.reduceToNat]
    omega

/-- Settles O43: the kept length is at most 63, the buffer is zero from it on, and no entry gives `Not Defined`. -/
theorem dispatchIsTotal : Obligations.DispatchIsTotal := by
  intro s std id i hi
  obtain ⟨t, result, oor, hexec, hnotDef⟩ := exec_title_or_value s hi rfl rfl
  have hlen := descText_len (entryOf s.tables.val.dispatch std id) t (classOf s.tables.val.dispatch std id) oor
  refine ⟨_, hexec, rfl, rfl, rfl, hlen.trans_le (emitLen_le t),
    fun j hj => emit_zero t j.val j.isLt (hlen.symm.trans_le hj), fun hent => ?_⟩
  obtain rfl := hnotDef hent
  exact ⟨rfl, hlen⟩

/-- Settles O44: KIND and CLASS are those of the pair's entry and class, which the tables determine. -/
theorem titleAndValuePartitionIdsAlike : Obligations.TitleAndValuePartitionIdsAlike := by
  intro s s' std id htables
  obtain ⟨_, _, _, htitle, -⟩ := exec_title_or_value s (.inl rfl) rfl rfl
  obtain ⟨_, _, _, hvalue, -⟩ := exec_title_or_value s' (.inr rfl) rfl rfl
  refine ⟨_, _, htitle, hvalue, ?_, ?_⟩
  · simp only [State.endCommand_desc, State.putOutcome_desc, descText_class, htables]
  · simp only [State.endCommand_desc, State.putOutcome_desc, descText_kind, htables]

end Sys2Proof.Machine
end

-- No trap, and the overrun (60_exceptions.md R200, R204, R206).
section

namespace Sys2Proof.Machine

/-- A host's step does not fault, whatever the state: an operation answers a next state or is refused (R52, R200). -/
theorem hostStep_ne_fault (s : State) (r : Fault) : hostStep s ≠ .fault r := by
  unfold hostStep
  split
  · nofun
  · exact perform_ne_fault _ _ r

/-- Where the latched word is a command, its completion step answers a next state (R78, R200). -/
theorem completionStep_ne_fault {s : State} {i : Instr} (hdec : decode s.latch.cmd = .ok i) (r : Fault) :
    completionStep s ≠ .fault r := by
  obtain ⟨t, hexec, _⟩ := exec_completes i s
  rw [completionStep_ok s i hdec, hexec]
  nofun

/-- Settles O53: the completion step is due only while BUSY, and then the invariant says that the latched word is a
command. -/
theorem noStepFaultsUnderTheInvariant : Obligations.NoStepFaultsUnderTheInvariant := by
  intro s hs r
  rcases due_or_notDue s with ⟨hbusy, hwait⟩ | hdue
  · obtain ⟨i, hdec⟩ := hs.latched hbusy
    rw [step_due s hbusy hwait]
    exact completionStep_ne_fault hdec r
  · rw [step_notDue s hdue]
    exact hostStep_ne_fault s r

/-- BUSY is looked at first, before the word is decoded (R206). -/
theorem writeCmd_of_busy {s : State} (hbusy : s.busy = true) (w : Word) : s.writeCmd w = s.overrun :=
  if_pos hbusy

/-- Settles O6: a busy block does not decode the word, and an overrun writes OVR alone. -/
theorem cmdWriteWhileBusyOnlySetsOverrun : Obligations.CmdWriteWhileBusyOnlySetsOverrun :=
  fun _ w hbusy => writeCmd_of_busy hbusy w

end Sys2Proof.Machine
end

-- Bounded completion, and the outputs while BUSY (70_reset_and_hazards.md R225, R227, R230).
section

namespace Sys2Proof.Machine

/-- While a command waits, the host's operations lead from `s` to a state in which its completion step is due; a longer
run of `s` goes on from there (R227, R230). -/
theorem run_until_due (n : Nat) (s : State) (hbusy : s.busy = true) (hwait : s.wait = n)
    (hhost : ∀ op ∈ s.host, op.mayReset = false ∧ op.isDefined = true) :
    ∃ t : State, t.busy = true ∧ t.wait = 0 ∧ t.latch = s.latch ∧ t.tables = s.tables ∧
      ∀ k, core.run (n + k) s = core.run k t := by
  induction n generalizing s with
  | zero => exact ⟨s, hbusy, hwait, rfl, rfl, fun k => by rw [Nat.zero_add]⟩
  | succ n ih =>
    obtain ⟨u, hstep, hubusy, huwait, hulatch, hutables, huhost⟩ := busy_step s hbusy n hwait hhost
    obtain ⟨t, htbusy, htwait, htlatch, httables, hrun⟩ := ih u hubusy huwait huhost
    refine ⟨t, htbusy, htwait, htlatch.trans hulatch, httables.trans hutables, fun k => ?_⟩
    rw [Nat.add_right_comm, run_succ (n + k) s u hstep, hrun k]

/-- Settles O58: the run of `s.wait` steps ends where the completion step is due, with the latch `s` had, and one step
more is that completion step. -/
theorem completionIsReached : Obligations.CompletionIsReached := by
  intro s i hbusy hdec hhost
  obtain ⟨t, htbusy, htwait, hlatch, htables, hrun⟩ := run_until_due s.wait s hbusy rfl hhost
  have hcompletion : step t = exec i t := by
    rw [step_due t htbusy htwait, completionStep_ok t i (hlatch ▸ hdec)]
  exact ⟨t, hrun 0, htbusy, htwait, hlatch, htables, (hrun 1).trans ((run_one t).trans hcompletion)⟩

/-- A read of an output register while BUSY returns the next free word and counts the draw (R225, log entry 3). -/
theorem read_of_isOutput_of_busy {s : State} {r : Reg} (hbusy : s.busy = true) (hout : r.isOutput = true) :
    s.readReg r = Config.unspecifiedWord s.draws ∧ s.afterRead r = s.countDraw := by
  have hdraw : s.readIsDraw r = true := Bool.and_eq_true_iff.2 ⟨hbusy, hout⟩
  exact ⟨if_pos hdraw, if_pos hdraw⟩

/-- Settles O12: RESULT, DESC and the TEXT words are the output registers. -/
theorem outputReadsWhileBusyAreFree : Obligations.OutputReadsWhileBusyAreFree := by
  intro s r hbusy hreg
  have hout : r.isOutput = true := by rcases hreg with rfl | rfl | ⟨i, rfl⟩ <;> rfl
  exact read_of_isOutput_of_busy hbusy hout

end Sys2Proof.Machine
end
